-- ==== Sys2Proof/Word.lean ====
section
/-!
DEFINITION. The identifiers of the Lusmar 6408 (zones, channels, groups, blocks, record positions, ports), the byte, and
the fixed-length table that holds one record for each identifier.
-/

namespace Sys2Proof

/-- One character on a line, or one byte of plan memory. -/
abbrev Byte := BitVec 8

/-- A zone Z1 to Z48; the zone's number is the index plus 1. -/
abbrev ZoneId := Fin 48

/-- A channel A01 to A64; the channel's number is the index plus 1. -/
abbrev ActId := Fin 64

/-- An extract group G1 to G4; the group's number is the index plus 1. -/
abbrev GroupId := Fin 4

/-- A plan memory block, 0 to 63 by its own number. -/
abbrev BlockId := Fin 64

/-- A record position within a block, 0 to 31 by its own number. -/
abbrev PosId := Fin 32

/-- The alarm lines AL1 to AL4. -/
inductive Line where
  | al1 | al2 | al3 | al4
deriving DecidableEq, Repr

/-- The six ports (R144): one of the alarm lines, the firefighter line FF, the building line BL. -/
inductive Port where
  | alarm (l : Line)
  | ff
  | bl
deriving DecidableEq, Repr

/-- The ports in the order AL1, AL2, AL3, AL4, FF, BL (R174, R175). -/
def Port.index : Port → Fin 6
  | .alarm .al1 => 0
  | .alarm .al2 => 1
  | .alarm .al3 => 2
  | .alarm .al4 => 3
  | .ff => 4
  | .bl => 5

/-- All six ports, in the order of `Port.index`. -/
def Port.all : List Port := [.alarm .al1, .alarm .al2, .alarm .al3, .alarm .al4, .ff, .bl]

/-- One record for each of `n` identifiers. -/
abbrev Table (α : Type) (n : Nat) := Vector α n

/-- The record of identifier `i`. -/
def Table.look {α : Type} {n : Nat} (t : Table α n) (i : Fin n) : α := t[i.val]

/-- The table with the record of identifier `i` replaced by `x`. -/
def Table.put {α : Type} {n : Nat} (t : Table α n) (i : Fin n) (x : α) : Table α n := t.set i.val x

/-- The table that holds the same record for every identifier. -/
def Table.all {α : Type} (n : Nat) (x : α) : Table α n := Vector.replicate n x

/-- The table that holds `f i` for each identifier `i`. -/
def Table.of {α : Type} {n : Nat} (f : Fin n → α) : Table α n := Vector.ofFn f

/-- Every channel, in ascending actuator number. -/
def allActs : List ActId := List.finRange 64

/-- Every zone, in ascending number. -/
def allZones : List ZoneId := List.finRange 48

end Sys2Proof
end

