-- ==== Sys2Proof/Config.lean ====
section
/-!
DEFINITION. What the 6408's hardware fixes, and the free values: constants without a body, so that nothing about them can
be proved. Each free value stands for a value the spec leaves open.
-/

namespace Sys2Proof.Config

/-- The greatest rank, and the greatest value of a 32-bit figure (R2, R5, R78). -/
def max32 : Nat := 4294967295

/-- Most reports one report queue holds (R158). -/
def queueLimit : Nat := 32

/-- Most channels that stay fans at a start-up (R83, R168). -/
def fanLimit : Nat := 16

/-- Most zone records (R174) and most actuator records (R174) that one reply carries. -/
def zoneRecordsPerReply : Nat := 4

/-- Most actuator records one reply carries: "four zone records or seven actuator records fit one reply" (R174). -/
def actuatorRecordsPerReply : Nat := 7

/-- FREE VALUE (R130): the draw from which the array takes an operation's duration; the model keeps the stated range.
Log entry 13: DESIGN CHOICE, safe. -/
opaque arrayTime : Nat → Nat

/-- FREE VALUE (R135): whether the verify of an erase passes, where the model itself lets an erase run out.
Log entry 13: DESIGN CHOICE, safe. -/
opaque eraseVerifies : Nat → Bool

/-- FREE VALUE (R173): the byte at an offset of a position whose write was cut short. Log entry 12: DESIGN CHOICE, safe. -/
opaque interruptedByte : Nat → Nat → Byte

/-- FREE VALUE (R165): how long the start-up operation takes once the reset input is released; at most 2 s.
Log entry 14: DESIGN CHOICE, unsafe. -/
opaque startUpTime : Nat → Nat

/-- FREE VALUE (R78): the figure held for a movement longer than the 32-bit range of the travel statistics.
Log entry 15: DESIGN CHOICE, safe. -/
opaque overlongTravel : Nat → Nat

end Sys2Proof.Config
end

