-- ==== Sys2Proof/Syntax.lean ====
section
/-!
DEFINITION. The commands of the block: one constructor of `Instr` for each row of spec/opcode_table.json. A request command
says that a valid frame carrying that request has completed on a port (R148); the other commands are the events of the
timers, the plan memory array, the inputs, the resets and the receivers.
-/

namespace Sys2Proof

/-- The body of a request after its code (R171): its decoded fields, or a body that R171 judges malformed in its length or
in an enumerated argument. A number out of its range is still a field; its owner refuses it. -/
inductive Body (α : Type) where
  | fields (a : α)
  | malformed
deriving DecidableEq, Repr

/-- The firefighter modes (R2, R12), in the order of their codes. -/
inductive ZoneMode where
  | auto | extract | off
deriving DecidableEq, Repr

/-- The settings of SET OVERRIDE and SET NORMAL (R54, R58, R172). `release` is AUTO of the one and NONE of the other. -/
inductive Setting where
  | opened | closed | off | on | release
deriving DecidableEq, Repr

structure ZoneModeArgs where
  zone : Nat
  mode : ZoneMode
deriving DecidableEq, Repr

structure SettingArgs where
  actuator : Nat
  setting : Setting
  speed : Nat
deriving DecidableEq, Repr

structure TestArgs where
  zone : Nat
  hold : Nat
deriving DecidableEq, Repr

structure WriteArgs where
  block : Nat
  position : Nat
  record : List Byte
deriving DecidableEq, Repr

structure PositionArgs where
  block : Nat
  position : Nat
deriving DecidableEq, Repr

structure RangeArgs where
  first : Nat
  count : Nat
deriving DecidableEq, Repr

/-- The two forms of the zone table read (R162). -/
inductive ZoneReadArgs where
  | range (first count : Nat)
  | step (zone step : Nat)
deriving DecidableEq, Repr

/-- The three parts of a test record read (R163), in the order of their codes. -/
inductive TestPart where
  | summary | step | findings
deriving DecidableEq, Repr

structure TestReadArgs where
  zone : Nat
  part : TestPart
  index : Nat
deriving DecidableEq, Repr

/-- One constructor for each row of spec/opcode_table.json, in the table's order. -/
inductive Instr where
  | poll (p : Port) (b : Body Unit)
  | ackRestart (p : Port) (b : Body Unit)
  | alarm (p : Port) (b : Body Nat)
  | restore (p : Port) (b : Body Nat)
  | setZoneMode (p : Port) (b : Body ZoneModeArgs)
  | setOverride (p : Port) (b : Body SettingArgs)
  | clearFault (p : Port) (b : Body Nat)
  | setNormal (p : Port) (b : Body SettingArgs)
  | testZone (p : Port) (b : Body TestArgs)
  | abortTest (p : Port) (b : Body Unit)
  | restartController (p : Port) (b : Body Unit)
  | eraseSetup (p : Port) (b : Body Nat)
  | eraseConfirm (p : Port) (b : Body Nat)
  | writeRecord (p : Port) (b : Body WriteArgs)
  | commit (p : Port) (b : Body Nat)
  | suspend (p : Port) (b : Body Unit)
  | resume (p : Port) (b : Body Unit)
  | lock (p : Port) (b : Body Nat)
  | lockDown (p : Port) (b : Body Nat)
  | unlock (p : Port) (b : Body Nat)
  | readRecord (p : Port) (b : Body PositionArgs)
  | readBlockStates (p : Port) (b : Body Unit)
  | planStatus (p : Port) (b : Body Unit)
  | clearPlanStatus (p : Port) (b : Body Unit)
  | queryGeometry (p : Port) (b : Body Unit)
  | readReports (p : Port) (b : Body Nat)
  | zoneTableRead (p : Port) (b : Body ZoneReadArgs)
  | actuatorTableRead (p : Port) (b : Body RangeArgs)
  | groupTableRead (p : Port) (b : Body Nat)
  | startQueueRead (p : Port) (b : Body Unit)
  | testRecordRead (p : Port) (b : Body TestReadArgs)
  | linkTableRead (p : Port) (b : Body Unit)
  /-- A valid frame whose code `code` names no request of the 6408 (R148 step 3). -/
  | unknownRequestCode (p : Port) (code : Byte)
  | crcFailure (p : Port)
  | gapExpiry (p : Port)
  | replySent (p : Port)
  | supervisionWindowExpiry (p : Port)
  | purgeExpiry (z : ZoneId)
  | dwellExpiry (z : ZoneId)
  | stepTimeoutExpiry (z : ZoneId)
  | holdExpiry
  | travelTimerExpiry (a : ActId)
  | proofTimerExpiry (a : ActId)
  | runDownExpiry (a : ActId)
  | staggerExpiry
  | slewUpdate
  /-- `verified`: the array's verify of the erased block passed (R135). -/
  | eraseCompletion (verified : Bool)
  | writeCompletion
  | commitCompletion
  /-- The new debounced pair of channel `a`: `true` is asserted (R66). -/
  | switchChange (a : ActId) (openSwitch closedSwitch : Bool)
  | proofArrives (a : ActId)
  | proofLost (a : ActId)
  | commissioningInputOff
  | commissioningInputOn
  | powerOnReset
  | resetInputAsserted
  | resetInputReleased
  | startUpOperation
  /-- One character on a port's pair; `stopBit` false: a character received without its stop bit (R146). -/
  | byteArriving (p : Port) (b : Byte) (stopBit : Bool)
deriving DecidableEq, Repr

end Sys2Proof
end

