-- ==== Sys2Proof/Machine/State.lean ====
section
/-!
DEFINITION. The state of the 6408, block by block, as plain data: the channels and demand lists, the start queue and the
air-balance figures, the execution contexts, the zone table, the tests, plan memory, the ports, the inputs, the queue of
waiting commands; and the state after reset.
-/

namespace Sys2Proof.Machine

/-- Why the machine stops with a fault. -/
inductive Fault where
  /-- Raised by no command: the spec gives every command an effect or leaves the state as it was. Safe. -/
  | neverRaised
deriving DecidableEq, Repr

/-- Why a command has no meaning. -/
inductive Refusal where
  /-- Raised by `exec` alone, for a command that has no meaning yet. Safe: the machine stops where the hardware goes on. -/
  | notModelled (mnemonic : String)
deriving DecidableEq, Repr

/-! ### Positions and demands -/

/-- A damper position. -/
inductive DamperPos where
  | opened | closed
deriving DecidableEq, Repr

/-- A fan position: OFF, or ON at a speed in per mille. -/
inductive FanTarget where
  | off
  | on (speed : Nat)
deriving DecidableEq, Repr

/-- A position, of a damper or of a fan. -/
inductive Position where
  | damper (p : DamperPos)
  | fan (t : FanTarget)
deriving DecidableEq, Repr

/-- The class of a demand (R46). -/
inductive DemandClass where
  | manual | fire | test | normal
deriving DecidableEq, Repr

/-- The resolved class (R48), in the order of R85. -/
inductive ResolvedClass where
  | manual | fire | test | normal | rest
deriving DecidableEq, Repr

/-- The party that placed a demand (R46). -/
inductive Originator where
  | zone (z : ZoneId)
  | ff
  | bl
deriving DecidableEq, Repr

/-- One entry of a demand list (R46); the speed stands in the position. -/
structure Demand where
  cls : DemandClass
  orig : Originator
  pos : Position
deriving DecidableEq, Repr

/-- A resolved demand (R48): target, resolved class, and the originator, absent for an empty list. -/
structure Resolved where
  pos : Position
  cls : ResolvedClass
  orig : Option Originator
deriving DecidableEq, Repr

/-! ### Damper channels -/

inductive Role where
  | path | inlet
deriving DecidableEq, Repr

/-- The configured fields of a damper (R64); the travel limit in s, the free area in dm². -/
structure DamperCfg where
  role : Role
  group : Option GroupId
  fail : DamperPos
  rest : DamperPos
  travelLimit : Nat
  freeArea : Nat
deriving DecidableEq, Repr

/-- The damper states, in the order of R68. -/
inductive DamperState where
  | atOpen | atClosed | opening | closing | travelFault | switchFault
deriving DecidableEq, Repr

/-- The travel causes, in the order of R68. -/
inductive TravelCause where
  | command | drift | start | switchClear
deriving DecidableEq, Repr

/-- A damper's configuration and running record (R64, R68). `drive` true is energized; `timer` is the expiry time of a
running travel timer. The debounced switches stand with the channel's inputs. -/
structure Damper where
  cfg : DamperCfg
  state : DamperState
  target : DamperPos
  drive : Bool
  timer : Option Nat
  cause : Option TravelCause
  captureStart : Option Nat
deriving DecidableEq, Repr

/-- A channel's travel statistics (R78), times in ms. -/
structure Stats where
  last : Option Nat
  average : Option Nat
  count : Nat
  slow : Bool
deriving DecidableEq, Repr

/-! ### Fan channels -/

/-- The configured fields of a fan (R83). -/
structure FanCfg where
  group : Option GroupId
  rated : Nat
  minSpeed : Nat
  slewRate : Nat
  proofTime : Nat
  runDown : Nat
  path : List ActId
deriving DecidableEq, Repr

/-- The fan states in the order of the summary table of chapter 5, after UNASSIGNED. -/
inductive FanState where
  | stopped | waitInterlock | waitPermit | starting | running | runFault | stopping | stopFault
deriving DecidableEq, Repr

inductive FaultCause where
  | noProof | proofLost
deriving DecidableEq, Repr

inductive StopCause where
  | command | interlock | shed | start
deriving DecidableEq, Repr

/-- A fan's configuration and running record (R83, R85). `run` is the run output and `duty` the duty that the speed
reference puts out; the staged duty is the present speed (R84). The timers hold their expiry times while they run. -/
structure Fan where
  cfg : FanCfg
  state : FanState
  target : FanTarget
  cls : ResolvedClass
  applied : Nat
  present : Nat
  duty : Nat
  run : Bool
  proofTimer : Option Nat
  runDownTimer : Option Nat
  faultCause : Option FaultCause
  stopCause : Option StopCause
  requeue : Bool
deriving DecidableEq, Repr

/-- One of the 64 field channels, by its kind. -/
inductive Channel where
  | unassigned
  | damper (d : Damper)
  | fan (f : Fan)
deriving DecidableEq, Repr

/-- A sampled input (R66): the level at the pin, the debounced state, and how many consecutive samples have differed from
it. True is asserted, present, or on. -/
structure Input where
  pin : Bool
  debounced : Bool
  differing : Nat
deriving DecidableEq, Repr

/-- The two feedback inputs of a channel: the open switch, or a fan's proof; and the closed switch. -/
structure ChanInputs where
  first : Input
  second : Input
deriving DecidableEq, Repr

/-! ### Start queue and air balance -/

inductive JoinCause where
  | new | shed
deriving DecidableEq, Repr

/-- An entry of the start queue (R97). -/
structure QueueEntry where
  fan : ActId
  joined : Nat
  cause : JoinCause
deriving DecidableEq, Repr

/-- The configured fields of an extract group (R102): velocity limit in cm/s, 0 for unchecked; restore margin in L/s. -/
structure GroupCfg where
  velocity : Nat
  margin : Nat
deriving DecidableEq, Repr

/-- The running figures of a group as its last evaluation left them (R103). The flows and capacities, in mL/s, are formed
for a checked group alone (R104) and stand at 0 for an unchecked one. The area is in dm². -/
structure GroupFig where
  area : Nat
  capacity : Nat
  manualFlow : Nat
  available : Nat
  minFlow : Nat
  scaled : List ActId
  manual : List ActId
deriving DecidableEq, Repr

/-! ### Zones -/

/-- The zone states, in the order of R2. -/
inductive ZoneState where
  | normal | lockedOut | active | restoring | heldOff | testing
deriving DecidableEq, Repr

inductive Origin where
  | alarm | ff
deriving DecidableEq, Repr

/-- A set of alarm lines. -/
structure LineSet where
  al1 : Bool
  al2 : Bool
  al3 : Bool
  al4 : Bool
deriving DecidableEq, Repr

/-- The configured fields of a zone (R1); the purge time in s. -/
structure ZoneCfg where
  present : Bool
  planBlock : Option BlockId
  permitted : LineSet
  compatible : List ZoneId
  purgeTime : Nat
  testPermitted : Bool
deriving DecidableEq, Repr

/-- The running fields of a zone that the Incident Controller holds (R2). The plan in use, the step cursor and the step
outcome list stand in the zone's execution context; the degraded count is computed from it (R40). -/
structure Zone where
  state : ZoneState
  holders : LineSet
  ffMode : ZoneMode
  origin : Option Origin
  rank : Option Nat
  purge : Option Nat
deriving DecidableEq, Repr

/-- The plan in use (R27). -/
inductive PlanInUse where
  | own (b : BlockId)
  | fallback
  | none
deriving DecidableEq, Repr

inductive Phase where
  | sequencing | established
deriving DecidableEq, Repr

/-- The class of an execution context (R24). -/
inductive ExecClass where
  | fire | test
deriving DecidableEq, Repr

inductive StepResult where
  | complete | incomplete
deriving DecidableEq, Repr

/-- An entry of the step outcome list (R39). -/
structure StepOutcome where
  result : StepResult
  contested : List ActId
  unproven : List ActId
deriving DecidableEq, Repr

/-- The dwell timer of the current step (R24): running with its expiry time, expired, or stopped. -/
inductive Dwell where
  | running (deadline : Nat)
  | expired
  | stopped
deriving DecidableEq, Repr

/-- The execution context of a zone (R24). The fault set is computed from the posted table and the channels (R40). -/
structure Ctx where
  plan : PlanInUse
  steps : Nat
  step : Nat
  phase : Phase
  cls : ExecClass
  posted : List (ActId × Position)
  proof : List (ActId × Position)
  dwell : Dwell
  timeout : Option Nat
  ignored : Nat
  outcomes : List StepOutcome
deriving DecidableEq, Repr

/-! ### Tests -/

/-- The test outcomes, in the order of R117. -/
inductive TestOutcome where
  | none | pass | passSlow | fail | aborted
deriving DecidableEq, Repr

/-- The abort causes, in the order of R117. -/
inductive AbortCause where
  | alarm | ff | abortTest | blSilent | reset
deriving DecidableEq, Repr

inductive FindingKind where
  | fault | slow
deriving DecidableEq, Repr

/-- A finding of a test record (R117). -/
structure Finding where
  act : ActId
  kind : FindingKind
  last : Option Nat
deriving DecidableEq, Repr

/-- A test record (R117). -/
structure TestRecord where
  outcome : TestOutcome
  cause : Option AbortCause
  hold : Option Nat
  start : Option Nat
  stop : Option Nat
  steps : List StepOutcome
  findings : List Finding
deriving DecidableEq, Repr

/-- The phase of the test in progress (R116); HOLD carries the hold timer's expiry time. -/
inductive TestPhase where
  | plan
  | hold (deadline : Nat)
deriving DecidableEq, Repr

/-- The test in progress (R116). -/
structure Test where
  zone : ZoneId
  hold : Nat
  phase : TestPhase
deriving DecidableEq, Repr

/-! ### Plan memory -/

/-- The condition of a record position (R127), in the order of R173. -/
inductive PosCond where
  | unwritten | written | incomplete
deriving DecidableEq, Repr

/-- The block states, in the order of R175. -/
inductive BlockState where
  | blank | opened | valid | corrupt | erasing
deriving DecidableEq, Repr

inductive LockState where
  | unlocked | locked | lockedDown
deriving DecidableEq, Repr

/-- A commit mark that is present (R127): the checksum written at commit, or a mark an interrupted commit left damaged. -/
inductive CommitMark where
  | sound (checksum : Nat)
  | damaged
deriving DecidableEq, Repr

/-- A block of the array with the state and lock the PMC holds for it (R127 to R129). Its bytes stand in `Pmc.mem`. -/
structure Block where
  conds : Table PosCond 32
  eraseMark : Bool
  commitMark : Option CommitMark
  state : BlockState
  lock : LockState
deriving DecidableEq, Repr

/-- The kinds of array operation, in the order of R174. -/
inductive OpKind where
  | erase | write | commit
deriving DecidableEq, Repr

/-- An operation of the array on its block; a write carries its position and record (R130). -/
inductive ArrayOp where
  | erase (b : BlockId)
  | write (b : BlockId) (q : PosId) (record : List Byte)
  | commit (b : BlockId)
deriving DecidableEq, Repr

/-- The controller state (R130). BUSY holds the time at which the remaining time reaches 0, SUSPENDED the remaining time
in ms. -/
inductive Ctrl where
  | ready
  | eraseSetup (b : BlockId)
  | busy (op : ArrayOp) (deadline : Nat)
  | suspended (op : ArrayOp) (remaining : Nat)
deriving DecidableEq, Repr

/-- The six sticky status flags (R131). -/
structure StatusFlags where
  sequence : Bool
  lock : Bool
  write : Bool
  erase : Bool
  planInvalid : Bool
  permission : Bool
deriving DecidableEq, Repr

/-- The Plan Memory Controller and its array. `mem` lists the bytes of the array that are not FFh, by rising address. -/
structure Pmc where
  mem : List Host.Cell
  blocks : Table Block 64
  ctrl : Ctrl
  flags : StatusFlags
  commissioning : Input
deriving DecidableEq, Repr

/-! ### Reports -/

/-- The twenty report kinds, in the order of R156. -/
inductive ReportKind where
  | zoneState | stepDone | stepIncomplete | planMissing | planEntryIgnored | actuatorTarget | damperState | travelFault
  | travelRecovered | switchFault | fanState | fanShed | interlockTrip | testResult | linkSilent | linkRestored
  | planOpDone | blockCorrupt | configDefaulted | controllerStarted
deriving DecidableEq, Repr

inductive Subject where
  | zone (z : ZoneId)
  | actuator (a : ActId)
  | group (g : GroupId)
  | port (p : Port)
  | block (b : BlockId)
deriving DecidableEq, Repr

inductive LinkState where
  | online | silent
deriving DecidableEq, Repr

inductive NewState where
  | zone (x : ZoneState)
  | step (k : Nat)
  | block (b : BlockId)
  | target (p : Position)
  | damper (x : DamperState)
  | fan (x : FanState)
  | test (x : TestOutcome)
  | link (x : LinkState)
  | blockState (x : BlockState)
deriving DecidableEq, Repr

/-- The causes of ZONE_STATE, in the order of R22. -/
inductive ZoneCause where
  | alarm | restore | purgeExpiry | ffExtract | ffOff | ffAuto | reEvaluation | test
deriving DecidableEq, Repr

inductive PlanMissing where
  | fallback | none
deriving DecidableEq, Repr

/-- The causes of DAMPER_STATE, in the order of R174. -/
inductive DamperCause where
  | command | drift | switchClear | clear
deriving DecidableEq, Repr

/-- The causes of FAN_STATE, in the order of R174. -/
inductive FanCause where
  | command | interlockMade | interlock | grant | proof | noProof | proofLost | stopped | runDown | clear
deriving DecidableEq, Repr

/-- How the start-up operation was begun, in the order of R174. -/
inductive StartKind where
  | powerOn | resetInput | restartRequest
deriving DecidableEq, Repr

inductive Detail where
  | zoneCause (c : ZoneCause)
  | planMissing (c : PlanMissing)
  | cls (c : ResolvedClass) (z : Option ZoneId)
  | damperCause (c : DamperCause)
  | travelCause (c : TravelCause)
  | stateLeft (x : DamperState)
  | fanCause (c : FanCause)
  | abortCause (c : AbortCause)
  | op (k : OpKind)
  | startKind (k : StartKind)
  | count (n : Nat)
  | actuator (a : ActId)
  | travelTime (ms : Nat)
  | capacity (litres : Nat)
  | window (seconds : Nat)
  | recordPosition (n : Nat)
deriving DecidableEq, Repr

/-- A report (R156); an absent field is `none`. -/
structure Report where
  kind : ReportKind
  stamp : Nat
  subject : Option Subject
  newState : Option NewState
  detail : Option Detail
deriving DecidableEq, Repr

/-- A report queue with its loss count (R158). -/
structure ReportQueue where
  reports : List Report
  loss : Nat
deriving DecidableEq, Repr

/-! ### The channel side -/

/-- A change the channel controllers hand the Test Sequencer (R79, R101): entry to a fault state, or a capture with its
travel time and slow flag. -/
inductive TestNote where
  | fault (a : ActId)
  | capture (a : ActId) (time : Nat) (slow : Bool)
deriving DecidableEq, Repr

/-- The channel side: Timebase, channels with their inputs, statistics and demand lists, start queue, air balance and
report queues. `pxDue` and `notes` hold, within one event, the changes handed to the Plan Executor and the Test Sequencer
and not yet taken by them; both are empty between events. -/
structure Plant where
  now : Nat
  chans : Table Channel 64
  inputs : Table ChanInputs 64
  stats : Table Stats 64
  demands : Table (List Demand) 64
  queue : List QueueEntry
  stagger : Option Nat
  staggerInterval : Nat
  history : Table (List ActId) 4
  groups : Table GroupCfg 4
  figs : Table GroupFig 4
  ffReports : ReportQueue
  blReports : ReportQueue
  pxDue : List ActId
  notes : List TestNote
deriving DecidableEq, Repr

/-- The Test Sequencer (R116, R117). -/
structure TestSeq where
  test : Option Test
  records : Table TestRecord 48
deriving DecidableEq, Repr

/-- The channel side with the Plan Executor's contexts and the Test Sequencer. -/
structure Works where
  plant : Plant
  px : Table (Option Ctx) 48
  ts : TestSeq
deriving DecidableEq, Repr

/-- The Incident Controller: zone table, fire order, locked-out list, rank counter (R1 to R6). -/
structure Incident where
  cfg : Table ZoneCfg 48
  zones : Table Zone 48
  fireOrder : List ZoneId
  lockedOut : List ZoneId
  rank : Nat
deriving DecidableEq, Repr

/-- Everything an incident acts on. -/
structure Site where
  works : Works
  ic : Incident
deriving DecidableEq, Repr

/-! ### Ports -/

/-- The refusal reasons, in the order of their codes (R172). -/
inductive Reason where
  | badArgument | notPermittedOnPort | zoneAbsent | zoneNotPermitted | fireMode | testRunning | notPermitted | noPlan
  | planMemoryBusy | statusUncleared | noCommissioning | nothingInProgress | sequence | permission | lock | write
  | planInvalid
deriving DecidableEq, Repr

/-- The port status of a reply (R149); `queue` is the report count and loss count, on FF and BL. -/
structure PortStatus where
  restart : Bool
  incident : Bool
  lead : Option ZoneId
  queue : Option (Nat × Nat)
deriving DecidableEq, Repr

/-- A reply being sent: the refusal reason or acceptance, the port status, and the bytes of the fields after it. -/
structure Reply where
  refusal : Option Reason
  status : PortStatus
  fields : List Byte
deriving DecidableEq, Repr

/-- The part of a frame awaited next (R146), with what has been stored of it. -/
inductive FramePart where
  | sync2
  | len
  | body (len : Nat) (got : List Byte)
  | crc (body : List Byte) (first : Option Byte)
deriving DecidableEq, Repr

/-- The receive state (R144). IN_FRAME holds the time of the last byte, REPLYING the reply being sent. -/
inductive RxState where
  | hunting
  | inFrame (part : FramePart) (since : Nat)
  | replying (r : Reply)
deriving DecidableEq, Repr

/-- The record of a port (R144) with its configured window length in s and whether it is supervised (R152). `window` holds
the expiry time of a running window. -/
structure PortRec where
  rx : RxState
  link : LinkState
  window : Option Nat
  windowLen : Nat
  supervised : Bool
  restart : Bool
  errors : Nat
deriving DecidableEq, Repr

/-! ### The whole machine -/

/-- Whether the 6408 runs, or a start-up operation is under way (R164): how it was begun, whether the reset input holds it
at its first step, and for how many ms it has run. -/
inductive Mode where
  | running
  | startUp (kind : StartKind) (held : Bool) (elapsed : Nat)
deriving DecidableEq, Repr

/-- The state of the 6408, and the queue of waiting commands, first in, first out. `samplePhase` counts the ms since the
inputs were last sampled (R66), `restartDue` records an accepted RESTART CONTROLLER whose reply is still being sent (R155),
and `free` numbers the free values drawn so far (the model's own counter). -/
structure State where
  mode : Mode
  site : Site
  pmc : Pmc
  ports : Table PortRec 6
  resetInput : Input
  restartDue : Bool
  samplePhase : Nat
  free : Nat
  pending : List Instr
deriving DecidableEq, Repr

/-! ### The state after reset -/

def LineSet.empty : LineSet := ⟨false, false, false, false⟩
def Input.released : Input := ⟨false, false, 0⟩
def ChanInputs.released : ChanInputs := ⟨Input.released, Input.released⟩
def Stats.cleared : Stats := ⟨none, none, 0, false⟩
def StatusFlags.clear : StatusFlags := ⟨false, false, false, false, false, false⟩

/-- The never-tested form of a test record (R117). -/
def TestRecord.neverTested : TestRecord := ⟨.none, none, none, none, none, [], []⟩

/-- A zone's configured fields by default (R1). -/
def ZoneCfg.default : ZoneCfg := ⟨false, none, LineSet.empty, [], 600, false⟩

/-- A zone's running fields after start-up (R23). -/
def Zone.atRest : Zone := ⟨.normal, LineSet.empty, .auto, none, none, none⟩

/-- A group's configured fields by default (R102). -/
def GroupCfg.default : GroupCfg := ⟨0, 2000⟩

def GroupFig.zero : GroupFig := ⟨0, 0, 0, 0, 0, [], []⟩

/-- A block that has never been written (R128), as after a power-on reset: LOCKED (R143). -/
def Block.blank : Block := ⟨Table.all 32 .unwritten, false, none, .blank, .locked⟩

/-- A port's record at the end of the start-up operation (R144), its window of `len` s just started. -/
def PortRec.fresh (len : Nat) (supervised : Bool) : PortRec :=
  ⟨.hunting, .online, if supervised then some (len * 1000) else none, len, supervised, true, 0⟩

/-- The ports by default (R167): 10 s windows, 30 s for BL, all supervised. -/
def State.defaultPorts : Table PortRec 6 :=
  (Table.all 6 (PortRec.fresh 10 true)).put 5 (PortRec.fresh 30 true)

/-- The reports that a start-up on blank plan memory leaves in each queue (R165, R166). -/
def State.resetReports : ReportQueue :=
  ⟨[⟨.configDefaulted, 0, some (.block 63), none, none⟩,
    ⟨.controllerStarted, 0, none, none, some (.startKind .powerOn)⟩], 0⟩

/-- The channel side right after a power-on start-up on blank plan memory: every channel UNASSIGNED (R168). -/
def Plant.reset : Plant :=
  { now := 0
    chans := Table.all 64 .unassigned
    inputs := Table.all 64 ChanInputs.released
    stats := Table.all 64 Stats.cleared
    demands := Table.all 64 []
    queue := []
    stagger := none
    staggerInterval := 5
    history := Table.all 4 []
    groups := Table.all 4 GroupCfg.default
    figs := Table.all 4 GroupFig.zero
    ffReports := State.resetReports
    blReports := State.resetReports
    pxDue := []
    notes := [] }

/-- The machine right after reset: a power-on start-up has just ended (R165), plan memory holding nothing.
Log entry 3: DESIGN CHOICE, unsafe. -/
def State.reset : State :=
  { mode := .running
    site :=
      { works :=
          { plant := Plant.reset
            px := Table.all 48 none
            ts := ⟨none, Table.all 48 TestRecord.neverTested⟩ }
        ic := ⟨Table.all 48 ZoneCfg.default, Table.all 48 Zone.atRest, [], [], 0⟩ }
    pmc := ⟨[], Table.all 64 Block.blank, .ready, StatusFlags.clear, Input.released⟩
    ports := State.defaultPorts
    resetInput := Input.released
    restartDue := false
    samplePhase := 0
    free := 0
    pending := [] }

end Sys2Proof.Machine
end

