-- ==== Sys2Proof/Machine/Ops.lean ====
section
/-!
DEFINITION. The named operations every block uses: alarm-line sets, inputs, channels, and the Report Unit's taking of a
report into both queues (R157, R158).
-/

namespace Sys2Proof.Machine

/-! ### Sets of alarm lines (R3) -/

def LineSet.has (l : LineSet) : Line → Bool
  | .al1 => l.al1
  | .al2 => l.al2
  | .al3 => l.al3
  | .al4 => l.al4

def LineSet.withLine (l : LineSet) (x : Line) (v : Bool) : LineSet :=
  match x with
  | .al1 => { l with al1 := v }
  | .al2 => { l with al2 := v }
  | .al3 => { l with al3 := v }
  | .al4 => { l with al4 := v }

def LineSet.add (l : LineSet) (x : Line) : LineSet := l.withLine x true
def LineSet.remove (l : LineSet) (x : Line) : LineSet := l.withLine x false
def LineSet.isEmpty (l : LineSet) : Bool := !l.al1 && !l.al2 && !l.al3 && !l.al4

/-! ### Lists kept in an order -/

/-- `x` inserted before the first member whose key is greater than its own. -/
def insertByKey {α : Type} (key : α → Nat) (x : α) : List α → List α
  | [] => [x]
  | y :: ys => if key x < key y then x :: y :: ys else y :: insertByKey key x ys

/-- The list sorted by key; members of equal key keep their order. -/
def sortByKey {α : Type} (key : α → Nat) (l : List α) : List α :=
  l.foldl (fun acc x => insertByKey key x acc) []

/-! ### Inputs (R66) -/

/-- The debounced state of an input changes to `v`: its last three samples were `v`.
Log entry 7: DESIGN CHOICE, unsafe for the pin. -/
def Input.settle (v : Bool) : Input := ⟨v, v, 0⟩

/-- The debounced state of an input becomes `v`; an input that holds `v` already keeps its pin and its run of differing
samples, which only an agreeing sample ends (R66). -/
def Input.follow (v : Bool) (i : Input) : Input := if v = i.debounced then i else Input.settle v

/-- One sample of an input (R66): the third consecutive sample that differs from the debounced state changes it. The
answer's second part says whether it did. -/
def Input.sample (i : Input) : Input × Bool :=
  if i.pin = i.debounced then ({ i with differing := 0 }, false)
  else if i.differing < 2 then ({ i with differing := i.differing + 1 }, false)
  else (⟨i.pin, i.pin, 0⟩, true)

/-- The debounced states begin released, absent or off (R165 step 1); the pin is as it is. -/
def Input.restart (i : Input) : Input := { i with debounced := false, differing := 0 }

/-! ### Channels -/

/-- A damper channel's record. -/
def Plant.damper? (x : Plant) (a : ActId) : Option Damper :=
  match x.chans.look a with
  | .damper d => some d
  | _ => none

/-- A fan channel's record. -/
def Plant.fan? (x : Plant) (a : ActId) : Option Fan :=
  match x.chans.look a with
  | .fan f => some f
  | _ => none

def Plant.setChan (x : Plant) (a : ActId) (c : Channel) : Plant := { x with chans := x.chans.put a c }

/-- The fan record of channel `a` changed by `g`; nothing for another kind of channel. -/
def Plant.modFan (x : Plant) (a : ActId) (g : Fan → Fan) : Plant :=
  match x.chans.look a with
  | .fan f => x.setChan a (.fan (g f))
  | _ => x

/-- The channels configured as fans, in ascending actuator number. -/
def Plant.fans (x : Plant) : List ActId := allActs.filter fun a => (x.fan? a).isSome

/-- The change of channel `a` is handed to the Plan Executor (R51, R79, R101). -/
def Plant.handPx (x : Plant) (a : ActId) : Plant := { x with pxDue := x.pxDue ++ [a] }

/-- A change is handed to the Test Sequencer (R79, R101). -/
def Plant.handTs (x : Plant) (n : TestNote) : Plant := { x with notes := x.notes ++ [n] }

/-- The damper fault states are TRAVEL_FAULT and SWITCH_FAULT (R68). -/
def DamperState.isFault : DamperState → Bool
  | .travelFault | .switchFault => true
  | _ => false

/-- The fan fault states are RUN_FAULT and STOP_FAULT (R85). -/
def FanState.isFault : FanState → Bool
  | .runFault | .stopFault => true
  | _ => false

/-- The channel stands in a fault state (R40). -/
def Channel.isFault : Channel → Bool
  | .unassigned => false
  | .damper d => d.state.isFault
  | .fan f => f.state.isFault

/-- The run output is on in STARTING, RUNNING and RUN_FAULT (R85). -/
def FanState.energized : FanState → Bool
  | .starting | .running | .runFault => true
  | _ => false

/-- The demanded speed (R85): the target's speed, 0 when the target is OFF. -/
def FanTarget.speed : FanTarget → Nat
  | .off => 0
  | .on v => v

def Fan.demanded (f : Fan) : Nat := f.target.speed
def Fan.energized (f : Fan) : Bool := f.state.energized

/-! ### Reports -/

/-- A report queue takes a report (R158): to the tail, or discarded when 32 are held, the loss count rising to 255. -/
def ReportQueue.take (q : ReportQueue) (r : Report) : ReportQueue :=
  if q.reports.length < Config.queueLimit then { q with reports := q.reports ++ [r] }
  else { q with loss := min 255 (q.loss + 1) }

/-- The low 32 bits of the Timebase count (R156). Log entry 30: DEDUCED, safe. -/
def Plant.stamp (x : Plant) : Nat := x.now % (Config.max32 + 1)

/-- The Report Unit takes a report, stamps it and places it at the tail of both queues (R156, R157). -/
def Plant.report (x : Plant) (kind : ReportKind) (subject : Option Subject) (newState : Option NewState)
    (detail : Option Detail) : Plant :=
  let r : Report := ⟨kind, x.stamp, subject, newState, detail⟩
  { x with ffReports := x.ffReports.take r, blReports := x.blReports.take r }

/-- A report produced by the Plan Executor, the Incident Controller or the Test Sequencer. -/
def Works.report (w : Works) (kind : ReportKind) (subject : Option Subject) (newState : Option NewState)
    (detail : Option Detail) : Works :=
  { w with plant := w.plant.report kind subject newState detail }

def Site.report (x : Site) (kind : ReportKind) (subject : Option Subject) (newState : Option NewState)
    (detail : Option Detail) : Site :=
  { x with works := x.works.report kind subject newState detail }

def State.report (s : State) (kind : ReportKind) (subject : Option Subject) (newState : Option NewState)
    (detail : Option Detail) : State :=
  { s with site := s.site.report kind subject newState detail }

/-- The period of the speed reference in ms (R84). -/
def dutyPeriod : Nat := 2

/-- The speed reference takes its staged duty (R84). Log entry 29: DEDUCED, safe. -/
def Channel.takeDuty : Channel → Channel
  | .fan f => .fan { f with duty := f.present }
  | c => c

/-- The channels when the Timebase goes on to `now`: a speed reference has taken its staged duty where a period
of 2 ms has begun in between (R84). -/
def Plant.chansAt (x : Plant) (now : Nat) : Table Channel 64 :=
  if x.now / dutyPeriod < now / dutyPeriod then x.chans.map Channel.takeDuty else x.chans

/-- The Timebase stands at least at `t`: the expiry of a timer has been taken, whose deadline was `t`, and the speed
references have followed. Log entry 5: DESIGN CHOICE, unsafe. -/
def Plant.reach (x : Plant) (t : Nat) : Plant := { x with now := max x.now t, chans := x.chansAt (max x.now t) }

/-- Works with the channel side changed. -/
def Works.onPlant (w : Works) (g : Plant → Plant) : Works := { w with plant := g w.plant }

/-- Every part of the state but the queue of waiting commands that commands reach most: the Timebase. -/
def State.now (s : State) : Nat := s.site.works.plant.now

/-- The fire order is non-empty: an incident is under way (R18). -/
def State.incident (s : State) : Bool := !s.site.ic.fireOrder.isEmpty

/-- A test is in progress (R116). -/
def State.testRunning (s : State) : Bool := s.site.works.ts.test.isSome

end Sys2Proof.Machine
end

