-- ==== Sys2Proof/Machine/Balance.lean ====
section
/-!
DEFINITION. The figures of the Air Balance Unit (R102 to R112): a group's inlets, scaled and manual sets, capacities and
flows, the allocation of applied speeds, and the admission of a queued fan. All flows are in mL/s, exactly.
-/

namespace Sys2Proof.Machine

/-- A group with a velocity limit is checked (R102). -/
def GroupCfg.checked (g : GroupCfg) : Bool := g.velocity != 0

def Plant.checked (x : Plant) (g : GroupId) : Bool := (x.groups.look g).checked

/-- The free area that channel `a` adds to group `g` (R106): an INLET damper of the group that stands AT_OPEN. -/
def Plant.openArea (x : Plant) (g : GroupId) (a : ActId) : Nat :=
  match x.damper? a with
  | some d => if d.cfg.role = .inlet ∧ d.cfg.group = some g ∧ d.state = .atOpen then d.cfg.freeArea else 0
  | none => 0

/-- Channel `a` is an energized fan of group `g`, manual or scaled as `manual` says (R85, R103). -/
def Plant.inSet (x : Plant) (g : GroupId) (manual : Bool) (a : ActId) : Bool :=
  match x.fan? a with
  | some f => f.cfg.group == some g && f.energized && ((f.cls == .manual) == manual)
  | none => false

/-- The scaled set of a group (R103), held and sent in ascending actuator number. Log entry 35: DESIGN CHOICE, unsafe. -/
def Plant.scaledSet (x : Plant) (g : GroupId) : List ActId := allActs.filter (x.inSet g false)

/-- The manual set of a group (R103), held and sent in ascending actuator number. Log entry 35: DESIGN CHOICE, unsafe. -/
def Plant.manualSet (x : Plant) (g : GroupId) : List ActId := allActs.filter (x.inSet g true)

/-- Q times the demanded speed of fan `a` (R107). -/
def Plant.demandFlow (x : Plant) (a : ActId) : Nat :=
  match x.fan? a with
  | some f => f.cfg.rated * f.demanded
  | none => 0

/-- Q times the minimum speed of fan `a` (R103). -/
def Plant.leastFlow (x : Plant) (a : ActId) : Nat :=
  match x.fan? a with
  | some f => f.cfg.rated * f.cfg.minSpeed
  | none => 0

/-- The figures of a group as the channels stand (R103, R106, R107); no flow or capacity for an unchecked group (R104). -/
def Plant.figures (x : Plant) (g : GroupId) : GroupFig :=
  let area := (allActs.map (x.openArea g)).sum
  let scaled := x.scaledSet g
  let manual := x.manualSet g
  if x.checked g then
    let capacity := 100 * (x.groups.look g).velocity * area
    let manualFlow := (manual.map x.demandFlow).sum
    { area, capacity, manualFlow
      available := capacity - manualFlow
      minFlow := (scaled.map x.leastFlow).sum
      scaled, manual }
  else { area, capacity := 0, manualFlow := 0, available := 0, minFlow := 0, scaled, manual }

/-- The figures of a group taken afresh. -/
def Plant.refresh (x : Plant) (g : GroupId) : Plant := { x with figs := x.figs.put g (x.figures g) }

/-- The same fans are energized in both figures (R111). -/
def GroupFig.sameEnergized (f h : GroupFig) : Bool :=
  allActs.all fun a => (f.scaled ++ f.manual).contains a == (h.scaled ++ h.manual).contains a

/-! ### Allocation (R109) -/

/-- A fan of the scaled set: rated flow Q, minimum speed m, demanded speed d. -/
structure ScaledFan where
  fan : ActId
  q : Nat
  m : Nat
  d : Nat
deriving DecidableEq, Repr

/-- The minimum flow of some scaled fans. -/
def minFlowOf (l : List ScaledFan) : Nat := (l.map fun f => f.q * f.m).sum

/-- The demanded flow of some scaled fans. -/
def demandFlowOf (l : List ScaledFan) : Nat := (l.map fun f => f.q * f.d).sum

/-- The figure a round computes for a fan: floor(d × A' ÷ D'). -/
def ScaledFan.share (a d : Nat) (f : ScaledFan) : Nat := f.d * a / d

/-- The rounds of the allocation on the free set, A' and D' (R109); a round on `k` free fans is followed by at most `k`
more. -/
def allocRounds : Nat → List ScaledFan → Nat → Nat → List (ActId × Nat)
  | 0, free, _, _ => free.map fun f => (f.fan, f.m)
  | n + 1, free, a, d =>
    let fixed := free.filter fun f => decide (f.share a d < f.m)
    if fixed.isEmpty then free.map fun f => (f.fan, f.share a d)
    else
      fixed.map (fun f => (f.fan, f.m))
        ++ allocRounds n (free.filter fun f => !decide (f.share a d < f.m)) (a - minFlowOf fixed) (d - demandFlowOf fixed)

/-- The applied speeds of the scaled fans for an available capacity A (R109). -/
def allocate (l : List ScaledFan) (a : Nat) : List (ActId × Nat) :=
  if demandFlowOf l ≤ a then l.map fun f => (f.fan, f.d)
  else allocRounds (l.length + 1) l a (demandFlowOf l)

/-- The scaled set of a group with each fan's figures. -/
def Plant.scaledFans (x : Plant) (g : GroupId) : List ScaledFan :=
  (x.scaledSet g).filterMap fun a => (x.fan? a).map fun f => ⟨a, f.cfg.rated, f.cfg.minSpeed, f.demanded⟩

/-- The applied speeds of a group's scaled set are handed to the fans (R111). -/
def Plant.handSpeeds (x : Plant) (g : GroupId) : Plant :=
  (allocate (x.scaledFans g) (x.figs.look g).available).foldl
    (fun y p => y.modFan p.1 fun f => { f with applied := p.2 }) x

/-- The applied speed that a fan's controller sets itself (R95): 0 with the run output off; the demanded speed for an
energized fan outside the check or MANUAL. A scaled fan of a checked group waits for the ABU. -/
def Plant.selfApplied (x : Plant) (a : ActId) : Plant :=
  match x.fan? a with
  | some f =>
    if !f.energized then x.modFan a fun f => { f with applied := 0 }
    else if f.cls == .manual || !(f.cfg.group.any x.checked) then x.modFan a fun f => { f with applied := f.demanded }
    else x
  | none => x

/-- The ABU's answer about a queued fan of a checked group (R112), on the figures as the last evaluation left them. -/
def Plant.roomFor (x : Plant) (g : GroupId) (f : Fan) : Bool :=
  let s := x.figs.look g
  decide (s.minFlow + f.cfg.rated * f.cfg.minSpeed + 1000 * (x.groups.look g).margin ≤ s.available)

/-- A queued fan is admissible (R99). -/
def Plant.admissible (x : Plant) (a : ActId) : Bool :=
  match x.fan? a with
  | some f =>
    f.cls == .manual ||
      match f.cfg.group with
      | none => true
      | some g => !x.checked g || x.roomFor g f
  | none => false

end Sys2Proof.Machine
end

