-- ==== Sys2Proof/Machine/Fans.lean ====
section
/-!
DEFINITION. The Fan Channel Controllers, the Start Permit Arbiter and the evaluations of the Air Balance Unit (R84 to R101,
R105 to R114). Every operation that can make the SPA look for a grant takes that search as its argument `walk`. A grant
starts the stagger timer (R99), so the operations inside a grant look for no further one: their `walk` is the identity.
-/

namespace Sys2Proof.Machine

/-! ### The fan record -/

/-- The fan `a` enters state `st`, its record otherwise changed by `g`; the change is handed to the Plan Executor, and an
entry to a fault state to the Test Sequencer (R101). -/
def Plant.fanEnter (x : Plant) (a : ActId) (st : FanState) (g : Fan → Fan) : Plant :=
  match x.fan? a with
  | some f =>
    let y := (x.modFan a fun f => { g f with state := st }).handPx a
    if st.isFault && !f.state.isFault then y.handTs (.fault a) else y
  | none => x

/-- The FAN_STATE report of fan `a` (R101). -/
def Plant.reportFan (x : Plant) (a : ActId) (st : FanState) (c : FanCause) : Plant :=
  x.report .fanState (some (.actuator a)) (some (.fan st)) (some (.fanCause c))

/-- Every damper of the fan's path list stands AT_OPEN (R87). A member that is no damper is not waited on (R83). -/
def Plant.pathOpen (x : Plant) (f : Fan) : Bool :=
  f.cfg.path.all fun a =>
    match x.damper? a with
    | some d => d.state == .atOpen
    | none => true

/-- The fan `a` leaves the start queue; the entries behind it move up (R97). -/
def Plant.leaveQueue (x : Plant) (a : ActId) : Plant := { x with queue := x.queue.filter fun e => e.fan != a }

/-- The fan `a` joins the tail of the start queue with cause SHED if it holds a requeue note and NEW otherwise (R86, R96,
R97). -/
def Plant.joinQueue (x : Plant) (a : ActId) : Plant :=
  match x.fan? a with
  | some f => { x with queue := (x.queue.filter fun e => e.fan != a) ++ [⟨a, x.now, if f.requeue then .shed else .new⟩] }
  | none => x

/-- The fan `a` joins the tail of its group's grant history (R98). -/
def Plant.joinHistory (x : Plant) (a : ActId) : Plant :=
  match x.fan? a with
  | some f =>
    match f.cfg.group with
    | some g => { x with history := x.history.put g ((x.history.look g).filter (· != a) ++ [a]) }
    | none => x
  | none => x

/-- The fan `a` leaves its group's grant history (R98). -/
def Plant.leaveHistory (x : Plant) (a : ActId) : Plant :=
  match x.fan? a with
  | some f =>
    match f.cfg.group with
    | some g => { x with history := x.history.put g ((x.history.look g).filter (· != a)) }
    | none => x
  | none => x

/-! ### The start path and the end of a stop -/

/-- The start path (R86): WAIT_PERMIT with a queue join when every path damper is AT_OPEN, WAIT_INTERLOCK otherwise. -/
def Plant.startPath (walk : Plant → Plant) (x : Plant) (a : ActId) : Plant :=
  match x.fan? a with
  | some f =>
    if x.pathOpen f then
      walk (((x.fanEnter a .waitPermit id).reportFan a .waitPermit .command).joinQueue a)
    else (x.fanEnter a .waitInterlock id).reportFan a .waitInterlock .command
  | none => x

/-- Stop completion (R92): STOPPED, then the start path when the target is ON. -/
def Plant.completeStop (walk : Plant → Plant) (x : Plant) (a : ActId) : Plant :=
  match x.fan? a with
  | some f =>
    let y := (x.fanEnter a .stopped fun f => { f with runDownTimer := none, stopCause := none }).reportFan a .stopped .stopped
    if f.target = .off then y else y.startPath walk a
  | none => x

/-- The debounced proof input of channel `a` is present. -/
def Plant.proofPresent (x : Plant) (a : ActId) : Bool := (x.inputs.look a).first.debounced

/-- The record of a fan on entry to STOPPING (R92): run output off, present and applied speed 0, proof timer stopped, fault
cause discarded, the run-down timer started when proof is present. -/
def Fan.stopRecord (now : Nat) (proof : Bool) (cause : StopCause) (f : Fan) : Fan :=
  { f with
    run := false, present := 0, applied := 0, proofTimer := none, faultCause := none, stopCause := some cause
    runDownTimer := if proof then some (now + f.cfg.runDown * 1000) else none }

/-! ### Evaluations of the Air Balance Unit -/

/-- A shed order on fan `a` of group `g` (R96, R108): FAN_SHED, STOPPING with cause SHED and a requeue note, and a stop that
completes at once when proof is absent. The run output going off starts no evaluation of its own. Where the stop completes at
once, its queue join and the walk that it brings come here, before the next shed and the allocation, on the figures as shed so
far. Log entry 11: DEDUCED, unsafe. -/
def Plant.shed (walk : Plant → Plant) (g : GroupId) (x : Plant) (a : ActId) : Plant :=
  let proof := x.proofPresent a
  let y := x.report .fanShed (some (.actuator a)) (some (.fan .stopping))
    (some (.capacity ((x.figs.look g).available / 1000)))
  let y := (y.fanEnter a .stopping fun f => { f.stopRecord x.now proof .shed with requeue := true }).leaveHistory a
  let y := y.refresh g
  if proof then y else y.completeStop walk a

/-- Shedding (R108): from the most recent grant back, a scaled fan is shed while the minimum flow exceeds the available
capacity. Log entry 11: DEDUCED, unsafe. -/
def Plant.shedAll (walk : Plant → Plant) (g : GroupId) (x : Plant) : Plant :=
  (x.history.look g).reverse.foldl
    (fun y a =>
      let s := y.figs.look g
      if s.available < s.minFlow ∧ s.scaled.contains a then y.shed walk g a else y) x

/-- An evaluation of group `g` (R105 to R111): the figures, shedding, allocation, and a capacity notice to the SPA when C, A
or the energized set has changed. An unchecked group keeps its figures alone (R104). -/
def Plant.evaluate (walk : Plant → Plant) (g : GroupId) (x : Plant) : Plant :=
  let before := x.figs.look g
  let y := x.refresh g
  if !y.checked g then y
  else
    let mid := y.figs.look g
    let z := (y.shedAll walk g).handSpeeds g
    let after := z.figs.look g
    if after.capacity = before.capacity ∧ after.available = before.available
        ∧ before.sameEnergized mid ∧ mid.sameEnergized after then z
    else walk z

/-- The run output, resolved class or demanded speed of energized fan `a` has changed: its controller sets its own applied
speed (R95) and the ABU takes the change (R105). -/
def Plant.fanTouched (walk : Plant → Plant) (x : Plant) (a : ActId) : Plant :=
  let y := x.selfApplied a
  match (y.fan? a).bind fun f => f.cfg.group with
  | some g => y.evaluate walk g
  | none => y

/-- The fan `a` enters STOPPING (R92) with cause COMMAND, or with cause INTERLOCK for a damper that broke its path (R88). -/
def Plant.enterStopping (walk : Plant → Plant) (x : Plant) (a : ActId) (broken : Option ActId) : Plant :=
  let proof := x.proofPresent a
  let cause := if broken.isSome then StopCause.interlock else .command
  let y := x.fanEnter a .stopping (Fan.stopRecord x.now proof cause)
  let y := match broken with
    | some d => y.report .interlockTrip (some (.actuator a)) (some (.fan .stopping)) (some (.actuator d))
    | none => y.reportFan a .stopping .command
  let y := (y.leaveHistory a).fanTouched walk a
  if proof then y else y.completeStop walk a

/-! ### Proof and grants -/

/-- Proof arriving at a STARTING or RUN_FAULT fan (R90): RUNNING. -/
def Plant.becomeRunning (x : Plant) (a : ActId) : Plant :=
  (x.fanEnter a .running fun f => { f with proofTimer := none, faultCause := none }).reportFan a .running .proof

/-- A start permit granted to fan `a` (R89, R98, R99): the stagger timer starts; the fan leaves the queue and becomes STARTING
at its minimum speed, its proof timer started and its requeue note dropped; the ABU takes the change; a proof already
present makes the fan RUNNING at once. Log entry 11: DEDUCED, unsafe. -/
def Plant.grant (x : Plant) (a : ActId) : Plant :=
  let y := { x with stagger := some (x.now + x.staggerInterval * 1000) }
  let y := (y.leaveQueue a).fanEnter a .starting fun f =>
    { f with
      run := true, present := f.cfg.minSpeed, proofTimer := some (x.now + f.cfg.proofTime * 1000), requeue := false }
  let y := ((y.joinHistory a).reportFan a .starting .grant).fanTouched id a
  match y.fan? a with
  | some f => if y.proofPresent a && f.state == .starting then y.becomeRunning a else y
  | none => y

/-- Channel `a` is a fan in WAIT_PERMIT whose path dampers all stand AT_OPEN (R88, R97). -/
def Plant.waitsForPermit (x : Plant) (a : ActId) : Bool :=
  match x.fan? a with
  | some f => f.state == .waitPermit && x.pathOpen f
  | none => false

/-- The SPA looks for a grant (R99): with the interval elapsed it walks the queue from the head and grants to the first
admissible fan. The grant meets a made interlock (R88): while a damper's change is being handed to its fans one at a time, a
queued fan behind it, whose path the change has broken, takes no permit. -/
def Plant.walk (x : Plant) : Plant :=
  if x.stagger.isSome then x
  else
    match x.queue.find? fun e => x.waitsForPermit e.fan && x.admissible e.fan with
    | some e => x.grant e.fan
    | none => x

/-! ### What the other blocks hand a fan -/

/-- A path damper enters AT_OPEN (R87): a fan in WAIT_INTERLOCK whose whole path is open joins the start queue. -/
def Plant.pathMade (x : Plant) (a : ActId) : Plant :=
  match x.fan? a with
  | some f =>
    if f.state = .waitInterlock ∧ x.pathOpen f then
      (((x.fanEnter a .waitPermit id).reportFan a .waitPermit .interlockMade).joinQueue a).walk
    else x
  | none => x

/-- Path damper `d` leaves AT_OPEN (R88): an energized fan is tripped, a fan in WAIT_PERMIT waits for its interlock again. -/
def Plant.pathBroken (x : Plant) (a d : ActId) : Plant :=
  match x.fan? a with
  | some f =>
    if f.energized then x.enterStopping Plant.walk a (some d)
    else if f.state = .waitPermit then
      ((x.leaveQueue a).fanEnter a .waitInterlock id).reportFan a .waitInterlock .interlock
    else x
  | none => x

/-- The fan `a` takes a resolved demand (R86): its record takes target and class, a target of OFF drops the requeue note, and
the change acts by the fan's state. -/
def Plant.fanTarget (x : Plant) (a : ActId) (t : FanTarget) (c : ResolvedClass) : Plant :=
  match x.fan? a with
  | some f =>
    let y := x.modFan a fun f => { f with target := t, cls := c, requeue := f.requeue && t != .off }
    match f.state with
    | .stopped => if f.target = .off ∧ t ≠ .off then y.startPath Plant.walk a else y
    | .waitInterlock => if t = .off then (y.fanEnter a .stopped id).reportFan a .stopped .command else y
    | .waitPermit =>
      if t = .off then ((y.leaveQueue a).fanEnter a .stopped id).reportFan a .stopped .command
      else if c ≠ f.cls then y.walk else y
    | .starting | .running | .runFault =>
      if t = .off then y.enterStopping Plant.walk a none
      else if t ≠ f.target ∨ (c = .manual) ≠ (f.cls = .manual) then y.fanTouched Plant.walk a
      else y
    | .stopping | .stopFault => y
  | none => x

/-- CLEAR FAULT on fan `a` (R93). -/
def Plant.clearFan (x : Plant) (a : ActId) : Plant :=
  match x.fan? a with
  | some f =>
    match f.state with
    | .runFault =>
      (x.fanEnter a .starting fun f =>
        { f with faultCause := none, present := f.cfg.minSpeed, proofTimer := some (x.now + f.cfg.proofTime * 1000) }).reportFan
          a .starting .clear
    | .stopFault =>
      (x.fanEnter a .stopping fun f => { f with runDownTimer := some (x.now + f.cfg.runDown * 1000) }).reportFan
        a .stopping .clear
    | _ => x
  | none => x

/-! ### Fan events -/

/-- The debounced proof of channel `a` becomes `v`. -/
def Plant.setProof (x : Plant) (a : ActId) (v : Bool) : Plant :=
  { x with inputs := x.inputs.put a { x.inputs.look a with first := (x.inputs.look a).first.follow v } }

/-- Proof arrives at channel `a` (R90, R91); a debounced proof already present is no change. -/
def Plant.proofArrives (x : Plant) (a : ActId) : Plant :=
  match x.chans.look a with
  | .damper _ => x
  | .unassigned => x.setProof a true
  | .fan f =>
    if x.proofPresent a then x
    else if f.state = .starting ∨ f.state = .runFault then (x.setProof a true).becomeRunning a
    else x.setProof a true

/-- Proof lost at channel `a` (R91, R92); a debounced proof already absent is no change. -/
def Plant.proofLost (x : Plant) (a : ActId) : Plant :=
  match x.chans.look a with
  | .damper _ => x
  | .unassigned => x.setProof a false
  | .fan f =>
    if !x.proofPresent a then x
    else
      let y := x.setProof a false
      match f.state with
      | .running =>
        (y.fanEnter a .runFault fun f => { f with faultCause := some .proofLost }).reportFan a .runFault .proofLost
      | .stopping | .stopFault => y.completeStop Plant.walk a
      | _ => y

/-- The proof timer of fan `a` expires (R90): a STARTING fan enters RUN_FAULT with cause NO_PROOF. -/
def Plant.proofExpiry (x : Plant) (a : ActId) : Plant :=
  match x.fan? a with
  | some f =>
    match f.state, f.proofTimer with
    | .starting, some d =>
      ((x.reach d).fanEnter a .runFault fun f => { f with proofTimer := none, faultCause := some .noProof }).reportFan
        a .runFault .noProof
    | _, _ => x
  | none => x

/-- The run-down timer of fan `a` expires (R92): a STOPPING fan enters STOP_FAULT. -/
def Plant.runDownExpiry (x : Plant) (a : ActId) : Plant :=
  match x.fan? a with
  | some f =>
    match f.state, f.runDownTimer with
    | .stopping, some d =>
      ((x.reach d).fanEnter a .stopFault fun f => { f with runDownTimer := none }).reportFan a .stopFault .runDown
    | _, _ => x
  | none => x

/-- The stagger timer expires (R99): the SPA looks for a grant. -/
def Plant.staggerExpiry (x : Plant) : Plant :=
  match x.stagger with
  | some d => ({ x.reach d with stagger := none }).walk
  | none => x

/-- The present speed after one slew update (R94): one step of floor(slew rate ÷ 10) toward the applied speed. -/
def slewStep (rate present applied : Nat) : Nat :=
  let step := rate / 10
  if present ≤ applied then min applied (present + step) else max applied (present - step)

/-- A RUNNING fan's record after a slew update (R94). -/
def Channel.slew : Channel → Channel
  | .fan f =>
    if f.state = .running then .fan { f with present := slewStep f.cfg.slewRate f.present f.applied } else .fan f
  | c => c

/-- A slew update of every RUNNING fan (R94). -/
def Plant.slewUpdate (x : Plant) : Plant := { x with chans := x.chans.map Channel.slew }

end Sys2Proof.Machine
end

