-- ==== Sys2Proof/Machine/Dampers.lean ====
section
/-!
DEFINITION. The Damper Channel Controllers (R65 to R80): the drive, the switch conditions, travel and its faults, the travel
statistics, and what a change of a damper's state hands to its fans and its group.
-/

namespace Sys2Proof.Machine

/-- The four switch conditions (R67). -/
inductive SwitchCond where
  | atOpenEnd | atClosedEnd | between | contradictory
deriving DecidableEq, Repr

def switchCond (openSwitch closedSwitch : Bool) : SwitchCond :=
  match openSwitch, closedSwitch with
  | true, false => .atOpenEnd
  | false, true => .atClosedEnd
  | false, false => .between
  | true, true => .contradictory

/-- The switch condition of channel `a` by its debounced pair. -/
def Plant.condOf (x : Plant) (a : ActId) : SwitchCond :=
  switchCond (x.inputs.look a).first.debounced (x.inputs.look a).second.debounced

/-- The condition at the end of travel for a position (R67). -/
def DamperPos.endCond : DamperPos → SwitchCond
  | .opened => .atOpenEnd
  | .closed => .atClosedEnd

/-- AT_OPEN or AT_CLOSED. -/
def DamperPos.atState : DamperPos → DamperState
  | .opened => .atOpen
  | .closed => .atClosed

/-- OPENING or CLOSING. -/
def DamperPos.travelState : DamperPos → DamperState
  | .opened => .opening
  | .closed => .closing

/-- The drive that a target calls for (R65): energized while the target differs from the fail position. -/
def DamperCfg.driveFor (c : DamperCfg) (target : DamperPos) : Bool := target != c.fail

/-- The damper proven at its target: timer stopped, cause and capture start discarded. -/
def Damper.arrived (d : Damper) : Damper :=
  { d with state := d.target.atState, timer := none, cause := none, captureStart := none }

/-- The damper travelling toward its target from time `now`, its travel timer started with the travel limit. -/
def Damper.travelling (d : Damper) (now : Nat) (cause : TravelCause) : Damper :=
  { d with
    state := d.target.travelState
    timer := some (now + d.cfg.travelLimit * 1000)
    cause := some cause
    captureStart := if cause = .command then some now else none }

/-- The damper in SWITCH_FAULT: timer stopped, cause and capture start discarded (R72). -/
def Damper.inSwitchFault (d : Damper) : Damper :=
  { d with state := .switchFault, timer := none, cause := none, captureStart := none }

/-! ### What a damper hands on (R79) -/

/-- The fans whose path list names damper `a`, in ascending actuator number. -/
def Plant.fansThrough (x : Plant) (a : ActId) : List ActId :=
  allActs.filter fun f =>
    match x.fan? f with
    | some r => r.cfg.path.contains a
    | none => false

/-- An entry to AT_OPEN or a departure from it is handed to the fans one at a time, and then to the group of an inlet. -/
def Plant.handOpenness (x : Plant) (a : ActId) (was is : DamperState) (cfg : DamperCfg) : Plant :=
  if (was = .atOpen) = (is = .atOpen) then x
  else
    let y :=
      if is = .atOpen then (x.fansThrough a).foldl Plant.pathMade x
      else (x.fansThrough a).foldl (fun y f => y.pathBroken f a) x
    match cfg.role, cfg.group with
    | .inlet, some g => y.evaluate Plant.walk g
    | _, _ => y

/-- The damper `a` changes from `was` to the record `d`: report, then the hand-offs of R79. -/
def Plant.damperEnter (x : Plant) (a : ActId) (was : DamperState) (d : Damper) (kind : ReportKind)
    (detail : Option Detail) : Plant :=
  let y := ((x.setChan a (.damper d)).report kind (some (.actuator a)) (some (.damper d.state)) detail).handPx a
  let y := if d.state.isFault && !was.isFault then y.handTs (.fault a) else y
  y.handOpenness a was d.state d.cfg

/-! ### Travel statistics (R78) -/

/-- The travel time of an arrival: the time since the capture start, at least 1 ms. -/
def travelTime (now start : Nat) : Nat := max 1 (now - start)

/-- A travel time as the statistics, the findings and the reports hold it: itself, and beyond their 32-bit range a free value
in that range. Log entry 15: DESIGN CHOICE, safe. -/
def statedTime (t : Nat) : Nat := if t ≤ Config.max32 then t else 1 + Config.overlongTravel t % Config.max32

/-- The average after a capture (R78): the old average plus a quarter of the difference, truncated toward zero. -/
def newAverage (old t : Nat) : Nat := (old + Int.tdiv ((t : Int) - old) 4).toNat

/-- The slow test of a capture (R78); the travel limit in s. -/
def isSlow (t limit : Nat) : Bool := decide (3 * (limit * 1000) < 4 * t)

/-- The statistics after a capture of the travel time `t` (R78). The slow flag is judged by `t` itself (R75). -/
def Stats.capture (st : Stats) (t limit : Nat) : Stats :=
  { last := some (statedTime t)
    average := some (match st.average with
      | none => statedTime t
      | some old => newAverage old (statedTime t))
    count := min 65535 (st.count + 1)
    slow := isSlow t limit }

/-- The travel time that damper `d` captures on arriving now (R70, R75): only for cause COMMAND. -/
def Damper.captured (d : Damper) (now : Nat) : Option Nat :=
  if d.cause = some .command then d.captureStart.map (travelTime now) else none

/-- A capture is written to the statistics and handed to the Test Sequencer (R78, R79). -/
def Plant.capture (x : Plant) (a : ActId) (limit : Nat) (time : Option Nat) : Plant :=
  match time with
  | some t =>
    { x with stats := x.stats.put a ((x.stats.look a).capture t limit) }.handTs (.capture a (statedTime t) (isSlow t limit))
  | none => x

/-! ### Target changes (R69) -/

/-- The damper `a` takes a target position (R69); the position it holds already is no change. -/
def Plant.damperTarget (x : Plant) (a : ActId) (p : DamperPos) : Plant :=
  match x.damper? a with
  | some d =>
    if p = d.target then x
    else
      let e := { d with target := p, drive := d.cfg.driveFor p }
      match d.state with
      | .switchFault => x.setChan a (.damper e)
      | .atOpen | .atClosed =>
        x.damperEnter a d.state (e.travelling x.now .command) .damperState (some (.damperCause .command))
      | .opening | .closing | .travelFault =>
        if x.condOf a = p.endCond then
          x.damperEnter a d.state e.arrived .damperState (some (.damperCause .command))
        else x.damperEnter a d.state (e.travelling x.now .command) .damperState (some (.damperCause .command))
  | none => x

/-! ### Switch changes (R70 to R73, R75) -/

/-- The debounced pair of channel `a` becomes the given one (R66); a switch that does not change keeps its own run of
samples. -/
def Plant.setSwitches (x : Plant) (a : ActId) (o c : Bool) : Plant :=
  { x with inputs := x.inputs.put a ⟨(x.inputs.look a).first.follow o, (x.inputs.look a).second.follow c⟩ }

/-- The damper enters SWITCH_FAULT (R72); the report's detail is the state left. -/
def Plant.enterSwitchFault (x : Plant) (a : ActId) (d : Damper) : Plant :=
  x.damperEnter a d.state d.inSwitchFault .switchFault (some (.stateLeft d.state))

/-- The damper arrives at its target's end, by R70 or as a recovery by R75: capture, then AT_OPEN or AT_CLOSED. -/
def Plant.arrive (x : Plant) (a : ActId) (d : Damper) (kind : ReportKind) : Plant :=
  let t := d.captured x.now
  (x.capture a d.cfg.travelLimit t).damperEnter a d.state d.arrived kind (t.map fun t => .travelTime (statedTime t))

/-- The damper acts on a new switch condition by its state (R70 to R73, R75). -/
def Plant.damperSwitch (x : Plant) (a : ActId) (d : Damper) : Plant :=
  let c := x.condOf a
  match d.state with
  | .opening | .closing =>
    if c = d.target.endCond then x.arrive a d .damperState
    else if c = .contradictory then x.enterSwitchFault a d
    else x
  | .atOpen | .atClosed =>
    if c = .contradictory then x.enterSwitchFault a d
    else if c = d.target.endCond then x
    else x.damperEnter a d.state (d.travelling x.now .drift) .damperState (some (.damperCause .drift))
  | .travelFault =>
    if c = d.target.endCond then x.arrive a d .travelRecovered
    else if c = .contradictory then x.enterSwitchFault a d
    else x
  | .switchFault =>
    if c = .contradictory then x
    else if c = d.target.endCond then
      x.damperEnter a d.state d.arrived .damperState (some (.damperCause .switchClear))
    else x.damperEnter a d.state (d.travelling x.now .switchClear) .damperState (some (.damperCause .switchClear))

/-- A switch change of channel `a` to a new debounced pair (R66). The pair held already is no change; an UNASSIGNED
channel records it alone (R64), and a fan has no end switches. -/
def Plant.switchChange (x : Plant) (a : ActId) (o c : Bool) : Plant :=
  let i := x.inputs.look a
  match x.chans.look a with
  | .unassigned => x.setSwitches a o c
  | .fan _ => x
  | .damper d =>
    if o = i.first.debounced ∧ c = i.second.debounced then x else (x.setSwitches a o c).damperSwitch a d

/-! ### Travel timer and CLEAR FAULT -/

/-- The travel timer of damper `a` expires (R74): a travelling damper enters TRAVEL_FAULT, its cause and capture start
kept. -/
def Plant.travelExpiry (x : Plant) (a : ActId) : Plant :=
  match x.damper? a with
  | some d =>
    match d.timer with
    | some t =>
      if d.state = .opening ∨ d.state = .closing then
        (x.reach t).damperEnter a d.state { d with state := .travelFault, timer := none } .travelFault
          (d.cause.map .travelCause)
      else x
    | none => x
  | none => x

/-- CLEAR FAULT on damper `a` (R76): a damper in TRAVEL_FAULT travels again, cause and capture start kept. -/
def Plant.clearDamper (x : Plant) (a : ActId) : Plant :=
  match x.damper? a with
  | some d =>
    if d.state = .travelFault then
      x.damperEnter a d.state
        { d with state := d.target.travelState, timer := some (x.now + d.cfg.travelLimit * 1000) }
        .damperState (some (.damperCause .clear))
    else x
  | none => x

end Sys2Proof.Machine
end

