-- ==== Sys2Proof/Machine/Operands.lean ====
section
/-!
DEFINITION. The operands of requests: identifiers by their numbers, refused when out of range (R171), and the speeds and
hold times that are brought into range instead (R54, R58, R118).
-/

namespace Sys2Proof.Machine

/-- A zone number 1 to 48. -/
def zoneOfNumber (n : Nat) : Option ZoneId := if h : 1 ≤ n ∧ n ≤ 48 then some ⟨n - 1, by omega⟩ else none

/-- An actuator number 1 to 64. -/
def actOfNumber (n : Nat) : Option ActId := if h : 1 ≤ n ∧ n ≤ 64 then some ⟨n - 1, by omega⟩ else none

/-- A group number 1 to 4. -/
def groupOfNumber (n : Nat) : Option GroupId := if h : 1 ≤ n ∧ n ≤ 4 then some ⟨n - 1, by omega⟩ else none

/-- A block number 0 to 63. -/
def blockOfNumber (n : Nat) : Option BlockId := if h : n < 64 then some ⟨n, h⟩ else none

/-- A record position 0 to 31. -/
def posOfNumber (n : Nat) : Option PosId := if h : n < 32 then some ⟨n, h⟩ else none

/-- The fields of a body, or BAD_ARGUMENT for a malformed one (R171). -/
def fieldsOf {α : Type} : Body α → Except Reason α
  | .fields a => .ok a
  | .malformed => .error .badArgument

/-- An identifier in its range, or BAD_ARGUMENT (R171). -/
def inRange {α : Type} : Option α → Except Reason α
  | some a => .ok a
  | none => .error .badArgument

/-- A number brought into a range at the nearer end (R166). -/
def clampTo (lo hi n : Nat) : Nat := max lo (min hi n)

/-- The position that ON at a sent speed asks of a fan with minimum speed `m` (R54): 0 is OFF, a speed below the minimum is
the minimum, one above 1000 is 1000. -/
def rangedOn (m speed : Nat) : FanTarget :=
  if speed = 0 then .off else .on (if speed ≤ m then m else min 1000 speed)

/-- The hold of TEST ZONE as taken (R118). -/
def heldFor (n : Nat) : Nat := clampTo 10 600 n

/-- What a setting asks of a channel (R55, R58): a position of the channel's kind, or the removal of the entry. -/
inductive Asked where
  | place (p : Position)
  | release
deriving DecidableEq, Repr

/-- The setting checked against the kind of the channel, a speed brought into range after the kind (R54, R55, R58). -/
def askedOf (c : Channel) (st : Setting) (speed : Nat) : Except Reason Asked :=
  match c, st with
  | .unassigned, _ => .error .badArgument
  | _, .release => .ok .release
  | .damper _, .opened => .ok (.place (.damper .opened))
  | .damper _, .closed => .ok (.place (.damper .closed))
  | .fan _, .off => .ok (.place (.fan .off))
  | .fan f, .on => .ok (.place (.fan (rangedOn f.cfg.minSpeed speed)))
  | _, _ => .error .badArgument

end Sys2Proof.Machine
end

