-- ==== Sys2Proof/Machine/Demands.lean ====
section
/-!
DEFINITION. The Demand Resolver (R46 to R63): the order of a demand list, the resolved demand, the hand-off of a changed one
to its channel, and the insertions, removals and reorderings of entries.
-/

namespace Sys2Proof.Machine

/-! ### The order of a list (R47) -/

/-- An entry's place in its list under a fire order: MANUAL, then FIRE in fire order, then TEST, then NORMAL (R47). -/
def demandKey (order : List ZoneId) (d : Demand) : Nat :=
  match d.cls, d.orig with
  | .manual, _ => 0
  | .fire, .zone z => 1 + order.idxOf z
  | .fire, _ => 1 + order.length
  | .test, _ => 1000
  | .normal, _ => 1001

/-- An entry placed in a list (R46, R52, R56, R59): in the place of its originator's entry, or inserted by R47. -/
def placeDemand (order : List ZoneId) (d : Demand) (l : List Demand) : List Demand :=
  if l.any (fun e => e.orig == d.orig) then l.map fun e => if e.orig = d.orig then d else e
  else insertByKey (demandKey order) d l

/-- The entry of an originator taken out of a list. -/
def dropOriginator (o : Originator) (l : List Demand) : List Demand := l.filter fun e => e.orig != o

/-! ### The resolved demand (R48) -/

/-- The rest position of a channel (R48); an UNASSIGNED channel has none. -/
def Channel.restPos : Channel → Option Position
  | .unassigned => none
  | .damper d => some (.damper d.cfg.rest)
  | .fan _ => some (.fan .off)

def DemandClass.resolved : DemandClass → ResolvedClass
  | .manual => .manual
  | .fire => .fire
  | .test => .test
  | .normal => .normal

/-- The resolved demand of a channel with a demand list (R48): the head of the list, or the rest position. -/
def resolve (c : Channel) (l : List Demand) : Option Resolved :=
  match c.restPos with
  | none => none
  | some rest =>
    match l with
    | [] => some ⟨rest, .rest, none⟩
    | d :: _ => some ⟨d.pos, d.cls.resolved, some d.orig⟩

/-- The resolved demand of channel `a`. -/
def Plant.resolved (x : Plant) (a : ActId) : Option Resolved := resolve (x.chans.look a) (x.demands.look a)

/-- The zone that a resolved demand of class FIRE or TEST comes from (R49). -/
def Resolved.zone (r : Resolved) : Option ZoneId :=
  match r.cls, r.orig with
  | .fire, some (.zone z) => some z
  | .test, some (.zone z) => some z
  | _, _ => none

/-- A channel takes a resolved demand by its own rules (R69, R86). -/
def Plant.channelTakes (x : Plant) (a : ActId) (r : Resolved) : Plant :=
  match r.pos with
  | .damper p => x.damperTarget a p
  | .fan t => x.fanTarget a t r.cls

/-- A changed resolved demand is handed off (R49, R50): ACTUATOR_TARGET when the target has changed, then the channel, then
the Plan Executor. -/
def Plant.handOff (x : Plant) (a : ActId) (old new : Resolved) : Plant :=
  let y :=
    if old.pos = new.pos then x
    else x.report .actuatorTarget (some (.actuator a)) (some (.target new.pos)) (some (.cls new.cls new.zone))
  (y.channelTakes a new).handPx a

/-- The demand list of channel `a` becomes `l`; the list re-resolves (R49). -/
def Plant.setDemands (x : Plant) (a : ActId) (l : List Demand) : Plant :=
  let y := { x with demands := x.demands.put a l }
  match x.resolved a, y.resolved a with
  | some old, some new => if old = new then y else y.handOff a old new
  | _, _ => y

/-- A demand is placed in the list of channel `a` (R52, R56, R59). -/
def Plant.post (x : Plant) (order : List ZoneId) (a : ActId) (d : Demand) : Plant :=
  x.setDemands a (placeDemand order d (x.demands.look a))

/-- The entry of an originator leaves the list of channel `a` (R52, R56, R59, R60). -/
def Plant.drop (x : Plant) (o : Originator) (a : ActId) : Plant :=
  x.setDemands a (dropOriginator o (x.demands.look a))

/-- The entries of the list of channel `a` stand again in the order R47 gives under a fire order (R53). -/
def Plant.reorder (x : Plant) (order : List ZoneId) (a : ActId) : Plant :=
  x.setDemands a (sortByKey (demandKey order) (x.demands.look a))

/-- What an accepted SET OVERRIDE or SET NORMAL asks of the list of channel `a` (R56, R59). -/
def Plant.ask (x : Plant) (order : List ZoneId) (a : ActId) (cls : DemandClass) (o : Originator) (q : Asked) : Plant :=
  match q with
  | .place p => x.post order a ⟨cls, o, p⟩
  | .release => x.drop o a

end Sys2Proof.Machine
end

