-- ==== Sys2Proof/Decode.lean ====
section
/-!
DEFINITION. What bytes spell: the CRC-16 of the frames and of plan memory (R145), the fields of a body (R171), the request
a frame's body carries (R172), and the same table read the other way, as an encoder. The opcode table itself gives no row
any bits, so `decodeTableWord` reads no command from a word.
-/

namespace Sys2Proof

/-- One bit of the CRC-16 with generator 1021h (R145), on a number below 65,536. -/
def crcBit (c : Nat) : Nat :=
  if 32768 ≤ c then Nat.xor ((c * 2) % 65536) 4129 else c * 2

/-- One byte of the CRC-16, taken most significant bit first (R145). -/
def crcByte (c : Nat) (b : Byte) : Nat :=
  crcBit (crcBit (crcBit (crcBit (crcBit (crcBit (crcBit (crcBit (Nat.xor c (b.toNat * 256)))))))))

/-- The CRC-16 of R145: initial value FFFFh, no final inversion. -/
def crc16 (bs : List Byte) : Nat := bs.foldl crcByte 65535

/-- The byte that holds a number; a number above 255 keeps its low byte. -/
def byteOf (n : Nat) : Byte := BitVec.ofNat 8 n

/-- A number in two bytes, high byte first (R171). -/
def bytes2 (n : Nat) : List Byte := [byteOf (n / 256), byteOf n]

/-- A number in four bytes, high byte first (R171). -/
def bytes4 (n : Nat) : List Byte :=
  [byteOf (n / 16777216), byteOf (n / 65536), byteOf (n / 256), byteOf n]

/-- Two bytes read as a number, high byte first (R171). -/
def number2 (hi lo : Byte) : Nat := hi.toNat * 256 + lo.toNat

/-- A decoded enumerated argument, or a malformed body where the code is none of its values (R171). -/
def Body.ofOption {α : Type} : Option α → Body α
  | some a => .fields a
  | none => .malformed

/-- A body without arguments (R172): anything beyond the request code is malformed. -/
def bodyUnit : List Byte → Body Unit
  | [] => .fields ()
  | _ => .malformed

/-- A body of one number (R172). -/
def bodyNumber : List Byte → Body Nat
  | [x] => .fields x.toNat
  | _ => .malformed

/-- The firefighter mode a byte spells (R172). -/
def zoneModeOfByte (b : Byte) : Option ZoneMode :=
  match b.toNat with
  | 0 => some .auto
  | 1 => some .extract
  | 2 => some .off
  | _ => none

def byteOfZoneMode : ZoneMode → Byte
  | .auto => 0x00#8
  | .extract => 0x01#8
  | .off => 0x02#8

/-- The setting a byte spells: the position codes of R171, and 04h for AUTO or NONE (R172). -/
def settingOfByte (b : Byte) : Option Setting :=
  match b.toNat with
  | 0 => some .opened
  | 1 => some .closed
  | 2 => some .off
  | 3 => some .on
  | 4 => some .release
  | _ => none

def byteOfSetting : Setting → Byte
  | .opened => 0x00#8
  | .closed => 0x01#8
  | .off => 0x02#8
  | .on => 0x03#8
  | .release => 0x04#8

/-- The part a test record read asks for (R172). -/
def testPartOfByte (b : Byte) : Option TestPart :=
  match b.toNat with
  | 0 => some .summary
  | 1 => some .step
  | 2 => some .findings
  | _ => none

def byteOfTestPart : TestPart → Byte
  | .summary => 0x00#8
  | .step => 0x01#8
  | .findings => 0x02#8

def bodyZoneMode : List Byte → Body ZoneModeArgs
  | [z, m] => Body.ofOption ((zoneModeOfByte m).map fun md => ⟨z.toNat, md⟩)
  | _ => .malformed

def bodySetting : List Byte → Body SettingArgs
  | [a, st, hi, lo] => Body.ofOption ((settingOfByte st).map fun x => ⟨a.toNat, x, number2 hi lo⟩)
  | _ => .malformed

def bodyTest : List Byte → Body TestArgs
  | [z, hi, lo] => .fields ⟨z.toNat, number2 hi lo⟩
  | _ => .malformed

/-- WRITE RECORD: block, position and a record of 128 bytes (R172). -/
def bodyWrite : List Byte → Body WriteArgs
  | b :: q :: rest => if rest.length = 128 then .fields ⟨b.toNat, q.toNat, rest⟩ else .malformed
  | _ => .malformed

def bodyPosition : List Byte → Body PositionArgs
  | [b, q] => .fields ⟨b.toNat, q.toNat⟩
  | _ => .malformed

def bodyRange : List Byte → Body RangeArgs
  | [f, c] => .fields ⟨f.toNat, c.toNat⟩
  | _ => .malformed

/-- The zone table read: a range, or the step form with its third byte FFh (R172); with another third byte the body is
malformed. Log entry 37: DEDUCED, unsafe. -/
def bodyZoneRead : List Byte → Body ZoneReadArgs
  | [f, c] => .fields (.range f.toNat c.toNat)
  | [z, k, m] => if m = 0xFF#8 then .fields (.step z.toNat k.toNat) else .malformed
  | _ => .malformed

def bodyTestRead : List Byte → Body TestReadArgs
  | [z, q, i] => Body.ofOption ((testPartOfByte q).map fun pt => ⟨z.toNat, pt, i.toNat⟩)
  | _ => .malformed

/-- The request that the code `code` and the bytes after it spell, for a frame on port `p` (R172). A code that is none
of R172's spells an unknown request (R148 step 3). -/
def decodeCode (p : Port) (code : Byte) (args : List Byte) : Instr :=
  match code.toNat with
  | 0x01 => .poll p (bodyUnit args)
  | 0x02 => .ackRestart p (bodyUnit args)
  | 0x10 => .alarm p (bodyNumber args)
  | 0x11 => .restore p (bodyNumber args)
  | 0x20 => .setZoneMode p (bodyZoneMode args)
  | 0x21 => .setOverride p (bodySetting args)
  | 0x22 => .clearFault p (bodyNumber args)
  | 0x30 => .setNormal p (bodySetting args)
  | 0x31 => .testZone p (bodyTest args)
  | 0x32 => .abortTest p (bodyUnit args)
  | 0x33 => .restartController p (bodyUnit args)
  | 0x40 => .eraseSetup p (bodyNumber args)
  | 0x41 => .eraseConfirm p (bodyNumber args)
  | 0x42 => .writeRecord p (bodyWrite args)
  | 0x43 => .commit p (bodyNumber args)
  | 0x44 => .suspend p (bodyUnit args)
  | 0x45 => .resume p (bodyUnit args)
  | 0x46 => .lock p (bodyNumber args)
  | 0x47 => .lockDown p (bodyNumber args)
  | 0x48 => .unlock p (bodyNumber args)
  | 0x49 => .readRecord p (bodyPosition args)
  | 0x4A => .readBlockStates p (bodyUnit args)
  | 0x4B => .planStatus p (bodyUnit args)
  | 0x4C => .clearPlanStatus p (bodyUnit args)
  | 0x4D => .queryGeometry p (bodyUnit args)
  | 0x50 => .readReports p (bodyNumber args)
  | 0x60 => .zoneTableRead p (bodyZoneRead args)
  | 0x61 => .actuatorTableRead p (bodyRange args)
  | 0x62 => .groupTableRead p (bodyNumber args)
  | 0x63 => .startQueueRead p (bodyUnit args)
  | 0x64 => .testRecordRead p (bodyTestRead args)
  | 0x65 => .linkTableRead p (bodyUnit args)
  | _ => .unknownRequestCode p code

/-- The request that a frame's body spells; none for an empty body, which no frame carries (R145). -/
def decodeRequest (p : Port) : List Byte → Option Instr
  | [] => none
  | code :: args => some (decodeCode p code args)

/-- The arguments of a body, or six bytes, a length that no request of R172 has. -/
def Body.encode {α : Type} (f : α → List Byte) : Body α → List Byte
  | .fields a => f a
  | .malformed => List.replicate 6 0x00#8

def encodeUnit (b : Body Unit) : List Byte := b.encode fun _ => []
def encodeNumber (b : Body Nat) : List Byte := b.encode fun n => [byteOf n]
def encodeZoneMode (b : Body ZoneModeArgs) : List Byte := b.encode fun x => [byteOf x.zone, byteOfZoneMode x.mode]
def encodeSetting (b : Body SettingArgs) : List Byte :=
  b.encode fun x => byteOf x.actuator :: byteOfSetting x.setting :: bytes2 x.speed
def encodeTest (b : Body TestArgs) : List Byte := b.encode fun x => byteOf x.zone :: bytes2 x.hold
def encodeWrite (b : Body WriteArgs) : List Byte := b.encode fun x => byteOf x.block :: byteOf x.position :: x.record
def encodePosition (b : Body PositionArgs) : List Byte := b.encode fun x => [byteOf x.block, byteOf x.position]
def encodeRange (b : Body RangeArgs) : List Byte := b.encode fun x => [byteOf x.first, byteOf x.count]
def encodeZoneRead (b : Body ZoneReadArgs) : List Byte :=
  b.encode fun
    | .range f c => [byteOf f, byteOf c]
    | .step z k => [byteOf z, byteOf k, 0xFF#8]
def encodeTestRead (b : Body TestReadArgs) : List Byte :=
  b.encode fun x => [byteOf x.zone, byteOfTestPart x.part, byteOf x.index]

/-- The port and the frame body of a request command (R172); none for an event, which no frame carries. -/
def encodeRequest : Instr → Option (Port × List Byte)
  | .poll p b => some (p, 0x01#8 :: encodeUnit b)
  | .ackRestart p b => some (p, 0x02#8 :: encodeUnit b)
  | .alarm p b => some (p, 0x10#8 :: encodeNumber b)
  | .restore p b => some (p, 0x11#8 :: encodeNumber b)
  | .setZoneMode p b => some (p, 0x20#8 :: encodeZoneMode b)
  | .setOverride p b => some (p, 0x21#8 :: encodeSetting b)
  | .clearFault p b => some (p, 0x22#8 :: encodeNumber b)
  | .setNormal p b => some (p, 0x30#8 :: encodeSetting b)
  | .testZone p b => some (p, 0x31#8 :: encodeTest b)
  | .abortTest p b => some (p, 0x32#8 :: encodeUnit b)
  | .restartController p b => some (p, 0x33#8 :: encodeUnit b)
  | .eraseSetup p b => some (p, 0x40#8 :: encodeNumber b)
  | .eraseConfirm p b => some (p, 0x41#8 :: encodeNumber b)
  | .writeRecord p b => some (p, 0x42#8 :: encodeWrite b)
  | .commit p b => some (p, 0x43#8 :: encodeNumber b)
  | .suspend p b => some (p, 0x44#8 :: encodeUnit b)
  | .resume p b => some (p, 0x45#8 :: encodeUnit b)
  | .lock p b => some (p, 0x46#8 :: encodeNumber b)
  | .lockDown p b => some (p, 0x47#8 :: encodeNumber b)
  | .unlock p b => some (p, 0x48#8 :: encodeNumber b)
  | .readRecord p b => some (p, 0x49#8 :: encodePosition b)
  | .readBlockStates p b => some (p, 0x4A#8 :: encodeUnit b)
  | .planStatus p b => some (p, 0x4B#8 :: encodeUnit b)
  | .clearPlanStatus p b => some (p, 0x4C#8 :: encodeUnit b)
  | .queryGeometry p b => some (p, 0x4D#8 :: encodeUnit b)
  | .readReports p b => some (p, 0x50#8 :: encodeNumber b)
  | .zoneTableRead p b => some (p, 0x60#8 :: encodeZoneRead b)
  | .actuatorTableRead p b => some (p, 0x61#8 :: encodeRange b)
  | .groupTableRead p b => some (p, 0x62#8 :: encodeNumber b)
  | .startQueueRead p b => some (p, 0x63#8 :: encodeUnit b)
  | .testRecordRead p b => some (p, 0x64#8 :: encodeTestRead b)
  | .linkTableRead p b => some (p, 0x65#8 :: encodeUnit b)
  | .unknownRequestCode p c => some (p, [c])
  | _ => none

/-- The command a word spells by the bits spec/opcode_table.json gives its rows: it gives none of its rows any bits, so no
word spells a command. Log entry 28: DEDUCED, safe. -/
def decodeTableWord (_nbits _w : Nat) : Option Instr := none

end Sys2Proof
end

