-- ==== Sys2Proof/Machine/Flags.lean ====
section
/-!
DEFINITION. The six sticky status flags of the Plan Memory Controller (R131).
-/

namespace Sys2Proof.Machine

/-- Any flag is set (R131). -/
def StatusFlags.any (f : StatusFlags) : Bool :=
  f.sequence || f.lock || f.write || f.erase || f.planInvalid || f.permission

/-- One of the six flags. -/
inductive Flag where
  | sequence | lock | write | erase | planInvalid | permission
deriving DecidableEq, Repr

def StatusFlags.get (f : StatusFlags) : Flag → Bool
  | .sequence => f.sequence
  | .lock => f.lock
  | .write => f.write
  | .erase => f.erase
  | .planInvalid => f.planInvalid
  | .permission => f.permission

/-- A flag is set; one already set stays set (R131). -/
def StatusFlags.raise (f : StatusFlags) : Flag → StatusFlags
  | .sequence => { f with sequence := true }
  | .lock => { f with lock := true }
  | .write => { f with write := true }
  | .erase => { f with erase := true }
  | .planInvalid => { f with planInvalid := true }
  | .permission => { f with permission := true }

/-- The controller's flag `x` is set. -/
def Pmc.raise (m : Pmc) (x : Flag) : Pmc := { m with flags := m.flags.raise x }

end Sys2Proof.Machine
end

