-- ==== Sys2Proof/Machine/PlanArray.lean ====
section
/-!
DEFINITION. The plan memory array (R127, R173): its bytes in canonical form, its record positions, erase marks and commit
marks, the classification of a block (R143), and the plans the Plan Executor reads from it (R26, R173).
-/

namespace Sys2Proof.Machine

/-! ### Bytes -/

/-- What an unlisted byte of the array reads as: FFh (R173). -/
def Memory.unlisted : Byte := 0xFF#8

/-- The number of bytes in the array: 64 blocks of 32 positions of 128 bytes (R127, R173). -/
def Memory.size : Nat := 262144

/-- The byte at an address of the array. -/
def Memory.read (m : List Host.Cell) (a : Nat) : Byte :=
  match m with
  | [] => Memory.unlisted
  | (k, v) :: r => if k = a then v else Memory.read r a

/-- The array with the byte at `a` made `v`; a byte equal to what an unlisted one reads as is not listed. -/
def Memory.write (m : List Host.Cell) (a : Nat) (v : Byte) : List Host.Cell :=
  match m with
  | [] => if v = Memory.unlisted then [] else [(a, v)]
  | (k, w) :: r =>
    if a < k then (if v = Memory.unlisted then (k, w) :: r else (a, v) :: (k, w) :: r)
    else if a = k then (if v = Memory.unlisted then r else (a, v) :: r)
    else (k, w) :: Memory.write r a v

/-- Addresses rise strictly from `lo`, stay in the array, and no listed byte is FFh. -/
def Memory.wfFrom (lo : Nat) : List Host.Cell → Bool
  | [] => true
  | (k, v) :: r => decide (lo ≤ k) && decide (k < Memory.size) && decide (v ≠ Memory.unlisted) && Memory.wfFrom (k + 1) r

/-- The canonical form of the array's bytes. -/
def Memory.wf (m : List Host.Cell) : Bool := Memory.wfFrom 0 m

/-- The address of the first byte of a record position. -/
def recordBase (b : BlockId) (q : PosId) : Nat := b.val * 4096 + q.val * 128

/-- The bytes `bs` written from address `a` on. -/
def Memory.writeAll (m : List Host.Cell) (a : Nat) : List Byte → List Host.Cell
  | [] => m
  | v :: vs => Memory.writeAll (Memory.write m a v) (a + 1) vs

/-- Every byte of block `b` unlisted. -/
def Memory.eraseBlock (m : List Host.Cell) (b : BlockId) : List Host.Cell :=
  m.filter fun c => c.1 / 4096 != b.val

/-! ### Blocks and positions -/

def Pmc.block (m : Pmc) (b : BlockId) : Block := m.blocks.look b

def Pmc.setBlock (m : Pmc) (b : BlockId) (x : Block) : Pmc := { m with blocks := m.blocks.put b x }

def Pmc.modBlock (m : Pmc) (b : BlockId) (g : Block → Block) : Pmc := m.setBlock b (g (m.block b))

def Pmc.cond (m : Pmc) (b : BlockId) (q : PosId) : PosCond := (m.block b).conds.look q

/-- The 128 bytes of a record position; an UNWRITTEN one reads as FFh throughout (R173). -/
def Pmc.recordBytes (m : Pmc) (b : BlockId) (q : PosId) : List Byte :=
  if m.cond b q = .unwritten then List.replicate 128 Memory.unlisted
  else
    let cs := m.mem.filter fun c => c.1 / 128 == b.val * 32 + q.val
    (List.range 128).map fun o => Memory.read cs (recordBase b q + o)

/-- Every record position, in position order. -/
def allPositions : List PosId := List.finRange 32

def allBlocks : List BlockId := List.finRange 64

/-- The checksum of a block: the CRC-16 over its 4,096 bytes in position order (R127, R173). -/
def Pmc.checksum (m : Pmc) (b : BlockId) : Nat := crc16 (allPositions.flatMap fun q => m.recordBytes b q)

/-- The block's state by its contents (R143). -/
def Pmc.classify (m : Pmc) (b : BlockId) : BlockState :=
  let x := m.block b
  if x.eraseMark then .corrupt
  else
    match x.commitMark with
    | some (.sound c) => if c = m.checksum b then .valid else .corrupt
    | some .damaged => .corrupt
    | none => if allPositions.all (fun q => x.conds.look q == .unwritten) then .blank else .opened

/-! ### Operations -/

/-- The block an operation acts on. -/
def ArrayOp.target : ArrayOp → BlockId
  | .erase b => b
  | .write b _ _ => b
  | .commit b => b

def ArrayOp.kind : ArrayOp → OpKind
  | .erase _ => .erase
  | .write _ _ _ => .write
  | .commit _ => .commit

/-- The block under an operation in progress or suspended (R27, R142). -/
def Ctrl.target : Ctrl → Option BlockId
  | .busy op _ => some op.target
  | .suspended op _ => some op.target
  | _ => none

/-- An operation is in progress or suspended. -/
def Ctrl.operating (c : Ctrl) : Bool := c.target.isSome

/-- The range of an operation's duration in ms (R130): least, and number of values. -/
def ArrayOp.range : ArrayOp → Nat × Nat
  | .erase _ => (500, 1501)
  | .write _ _ _ => (1, 20)
  | .commit _ => (1, 200)

/-- The duration the array fixes for an operation: a free value within its stated range (R130). -/
def ArrayOp.duration (op : ArrayOp) (draw : Nat) : Nat :=
  op.range.1 + Config.arrayTime draw % op.range.2

/-- A record becomes WRITTEN at its position (R136). -/
def Pmc.storeRecord (m : Pmc) (b : BlockId) (q : PosId) (c : PosCond) (record : List Byte) : Pmc :=
  { m.modBlock b (fun x => { x with conds := x.conds.put q c }) with
      mem := Memory.writeAll m.mem (recordBase b q) (record.take 128) }

/-- What a reset leaves of an operation it cuts off (R143): an erase its erase mark; a write an INCOMPLETE position, holding
whatever the write left (a free value for each byte, R173); a commit a damaged commit mark.
Log entry 12: DEDUCED, unsafe. -/
def Pmc.cutOff (m : Pmc) (draw : Nat) : Pmc :=
  let cut (op : ArrayOp) : Pmc :=
    match op with
    | .erase _ => m
    | .write b q _ => m.storeRecord b q .incomplete ((List.range 128).map (Config.interruptedByte draw))
    | .commit b => m.modBlock b fun x => { x with commitMark := some .damaged }
  match m.ctrl with
  | .busy op _ => { cut op with ctrl := .ready }
  | .suspended op _ => { cut op with ctrl := .ready }
  | _ => { m with ctrl := .ready }

/-- The target of an operation is made LOCKED at its completion or suspension when the commissioning input has turned off
meanwhile (R141). -/
def Pmc.lockIfOff (m : Pmc) (b : BlockId) : Pmc :=
  if m.commissioning.debounced then m
  else m.modBlock b fun x => { x with lock := if x.lock = .unlocked then .locked else x.lock }

/-- A BUSY operation is suspended with its remaining time kept (R138). -/
def Pmc.suspendOp (m : Pmc) (now : Nat) : Pmc :=
  match m.ctrl with
  | .busy op d => { m.lockIfOff op.target with ctrl := .suspended op (d - now) }
  | _ => m

/-- Incident start at the PMC (R18, R139): a BUSY operation is suspended, a pending erase setup cancelled. -/
def Pmc.incidentStart (m : Pmc) (now : Nat) : Pmc :=
  match m.ctrl with
  | .busy _ _ => m.suspendOp now
  | .eraseSetup _ => { m with ctrl := .ready }
  | _ => m

/-- The commissioning input turns off (R141): every UNLOCKED block but the target of a BUSY operation becomes LOCKED, and a
pending erase setup is cancelled. -/
def Pmc.commissioningOff (m : Pmc) : Pmc :=
  let spared : Option BlockId := match m.ctrl with
    | .busy op _ => some op.target
    | _ => none
  { m with
    commissioning := Input.settle false
    blocks := Table.of fun b =>
      let x := m.block b
      if x.lock = .unlocked ∧ spared ≠ some b then { x with lock := .locked } else x
    ctrl := match m.ctrl with
      | .eraseSetup _ => .ready
      | c => c }

/-! ### Plans (R26, R173) -/

/-- Byte `i` of a record. -/
def byteAt (r : List Byte) (i : Nat) : Byte := r.getD i Memory.unlisted

/-- The 2-byte number at byte `i` of a record. -/
def numberAt (r : List Byte) (i : Nat) : Nat := number2 (byteAt r i) (byteAt r (i + 1))

/-- A demand entry of a step record. -/
structure PlanEntry where
  act : ActId
  pos : Position
  prove : Bool
deriving DecidableEq, Repr

/-- A step record: dwell and step timeout in s, and its entries in the order written. -/
structure StepRecord where
  dwell : Nat
  timeout : Nat
  entries : List PlanEntry
deriving DecidableEq, Repr

/-- The position a code and a speed spell (R171); none for a code above 03h. -/
def positionOf (code : Byte) (speed : Nat) : Option Position :=
  match code.toNat with
  | 0 => some (.damper .opened)
  | 1 => some (.damper .closed)
  | 2 => some (.fan .off)
  | 3 => some (.fan (.on speed))
  | _ => none

/-- Entry `i` of a step record, 5 bytes from byte 5 + 5i (R173); none for an illegal actuator or position. -/
def entryAt (r : List Byte) (i : Nat) : Option PlanEntry :=
  let o := 5 + 5 * i
  match actOfNumber (byteAt r o).toNat, positionOf (byteAt r (o + 1)) (numberAt r (o + 3)) with
  | some a, some p => some ⟨a, p, byteAt r (o + 2) != 0x00#8⟩
  | _, _ => none

/-- A step record as the Plan Executor reads it (R173). Entries beyond 24 and illegal entries, which no VALID block holds
(R137), are not read. Log entry 24: DEDUCED, safe. -/
def stepRecordOf (r : List Byte) : StepRecord :=
  ⟨numberAt r 0, numberAt r 2, (List.range (min 24 (byteAt r 4).toNat)).filterMap (entryAt r)⟩

/-- The step count n in a block's header (R173). -/
def Pmc.planSteps (m : Pmc) (b : BlockId) : Nat := (byteAt (m.recordBytes b 0) 0).toNat

/-- Step record `k` of a plan block, at position `k`. -/
def Pmc.planStep (m : Pmc) (b : BlockId) (k : Nat) : StepRecord :=
  match posOfNumber k with
  | some q => stepRecordOf (m.recordBytes b q)
  | none => ⟨0, 0, []⟩

/-- A block is usable as a plan in use (R27). -/
def Pmc.usable (m : Pmc) (b : BlockId) : Bool :=
  (m.block b).state == .valid && m.ctrl.target != some b

/-- The block a plan in use runs from. -/
def PlanInUse.block : PlanInUse → Option BlockId
  | .own b => some b
  | .fallback => some 0
  | .none => Option.none

/-- The choice of the plan in use (R27). -/
def Pmc.choosePlan (m : Pmc) (configured : Option BlockId) : PlanInUse :=
  match configured with
  | some b => if m.usable b then .own b else if m.usable 0 then .fallback else .none
  | none => if m.usable 0 then .fallback else .none

/-- An entry's actuator number, position code and speed pass the validation of COMMIT (R137). -/
def entryValid (r : List Byte) (i : Nat) : Bool :=
  let o := 5 + 5 * i
  let a := (byteAt r o).toNat
  let code := (byteAt r (o + 1)).toNat
  let speed := numberAt r (o + 3)
  decide (1 ≤ a) && decide (a ≤ 64) && decide (code ≤ 3) && (code != 3 || (decide (1 ≤ speed) && decide (speed ≤ 1000)))

/-- A step record passes the validation of COMMIT (R137): entry count, entries, no actuator twice, dwell and timeout. -/
def stepValid (r : List Byte) : Bool :=
  let n := (byteAt r 4).toNat
  let dwell := numberAt r 0
  let timeout := numberAt r 2
  decide (n ≤ 24)
    && (List.range n).all (entryValid r)
    && decide (((List.range n).map fun i => byteAt r (5 + 5 * i)).Nodup)
    && decide (dwell ≤ 600) && decide (10 ≤ timeout) && decide (timeout ≤ 900) && decide (dwell ≤ timeout)

/-- A plan block passes the validation of COMMIT (R137). -/
def Pmc.planValid (m : Pmc) (b : BlockId) : Bool :=
  let n := m.planSteps b
  m.cond b 0 == .written && decide (1 ≤ n) && decide (n ≤ 8)
    && allPositions.all fun q =>
      if q.val = 0 then true
      else if q.val ≤ n then m.cond b q == .written && stepValid (m.recordBytes b q)
      else m.cond b q == .unwritten

end Sys2Proof.Machine
end

