-- ==== Sys2Proof/Machine/Plans.lean ====
section
/-!
DEFINITION. The Plan Executor (R24 to R45) and the findings of a test (R120): the posting of a step, proof, the end of a
step, the degraded count, withdrawal, and the evaluations that a change calls for.
-/

namespace Sys2Proof.Machine

/-! ### Contexts -/

def Works.ctx (w : Works) (z : ZoneId) : Option Ctx := w.px.look z

def Works.setCtx (w : Works) (z : ZoneId) (c : Option Ctx) : Works := { w with px := w.px.put z c }

def Works.modCtx (w : Works) (z : ZoneId) (g : Ctx → Ctx) : Works :=
  match w.ctx z with
  | some c => w.setCtx z (some (g c))
  | none => w

/-- A record of the posted table, in ascending actuator number; a later record of an actuator replaces the earlier (R30). -/
def recordPosted (a : ActId) (p : Position) (l : List (ActId × Position)) : List (ActId × Position) :=
  insertByKey (fun r : ActId × Position => r.1.val) (a, p) (l.filter fun r => r.1 != a)

/-- The zone holds a demand on channel `a`. -/
def Ctx.holds (c : Ctx) (a : ActId) : Bool := c.posted.any fun r => r.1 == a

/-- The fault set (R40): the actuators of the posted table whose channels are in a fault state. -/
def Ctx.faultSet (x : Plant) (c : Ctx) : List ActId :=
  (c.posted.map Prod.fst).filter fun a => (x.chans.look a).isFault

/-- The degraded count (R40): fault set and ignored count together, at most 64; 0 for a zone that is not executing. -/
def Works.degraded (w : Works) (z : ZoneId) : Nat :=
  match w.ctx z with
  | some c => min 64 ((c.faultSet w.plant).length + c.ignored)
  | none => 0

/-! ### Findings of a test (R120) -/

/-- The finding of an actuator, if it has one. -/
def findingOf (a : ActId) (l : List Finding) : Option Finding := l.find? fun f => f.act == a

/-- A finding put in the place of its actuator, by actuator number. -/
def putFinding (f : Finding) (l : List Finding) : List Finding :=
  insertByKey (fun g : Finding => g.act.val) f (l.filter fun g => g.act != f.act)

/-- An entry to a fault state in the findings (R120); `last` is the damper's last travel, absent for a fan. -/
def faultFinding (a : ActId) (last : Option Nat) (l : List Finding) : List Finding :=
  match findingOf a l with
  | some f => if f.kind = .fault then l else putFinding ⟨a, .fault, last⟩ l
  | none => putFinding ⟨a, .fault, last⟩ l

/-- A capture in the findings (R120). -/
def captureFinding (a : ActId) (t : Nat) (slow : Bool) (l : List Finding) : List Finding :=
  match findingOf a l with
  | some f => putFinding { f with last := some t } l
  | none => if slow then putFinding ⟨a, .slow, some t⟩ l else l

/-- The last travel a finding carries: a damper's from its statistics; absent for a fan (R117). -/
def Plant.lastTravel (x : Plant) (a : ActId) : Option Nat :=
  match x.chans.look a with
  | .damper _ => (x.stats.look a).last
  | _ => none

/-- The open record of the test in progress has its findings changed by `g`. A closed record takes none. -/
def TestSeq.addFinding (t : TestSeq) (g : List Finding → List Finding) : TestSeq :=
  match t.test with
  | some u =>
    let r := t.records.look u.zone
    if r.outcome = .none then { t with records := t.records.put u.zone { r with findings := g r.findings } } else t
  | none => t

/-- The actuator counts for the test in progress: the zone under test holds a demand on it (R120). -/
def Works.counts (w : Works) (a : ActId) : Bool :=
  match w.ts.test with
  | some u =>
    match w.ctx u.zone with
    | some c => c.holds a
    | none => false
  | none => false

/-- The Test Sequencer takes one change handed to it (R120). -/
def Works.takeNote (w : Works) (n : TestNote) : Works :=
  match n with
  | .fault a => if w.counts a then { w with ts := w.ts.addFinding (faultFinding a (w.plant.lastTravel a)) } else w
  | .capture a t slow => if w.counts a then { w with ts := w.ts.addFinding (captureFinding a t slow) } else w

/-- The Test Sequencer takes every change handed to it. -/
def Works.takeNotes (w : Works) : Works :=
  w.plant.notes.foldl Works.takeNote { w with plant := { w.plant with notes := [] } }

/-! ### Proof (R33) -/

/-- Two positions are the same for proof: two ON positions are, whatever their speeds (R33). -/
def Position.sameForProof : Position → Position → Bool
  | .damper p, .damper q => p == q
  | .fan .off, .fan .off => true
  | .fan (.on _), .fan (.on _) => true
  | _, _ => false

/-- The channel stands at a position (R33). -/
def Channel.standsAt : Channel → Position → Bool
  | .damper d, .damper p => d.state == p.atState
  | .fan f, .fan .off => f.state == .stopped
  | .fan f, .fan (.on _) => f.state == .running
  | _, _ => false

/-- The entry's actuator is resolved to a different position (R33). -/
def Plant.contested (x : Plant) (e : ActId × Position) : Bool :=
  match x.resolved e.1 with
  | some r => !r.pos.sameForProof e.2
  | none => false

/-- The entry's actuator is resolved to its position and stands there (R33). -/
def Plant.proven (x : Plant) (e : ActId × Position) : Bool :=
  match x.resolved e.1 with
  | some r => r.pos.sameForProof e.2 && (x.chans.look e.1).standsAt e.2
  | none => false

/-- Proof of the current step holds (R33). -/
def Plant.proofHolds (x : Plant) (c : Ctx) : Bool := c.proof.all fun e => x.proven e || x.contested e

/-! ### Posting a step (R29 to R32) -/

/-- A plan position fits the kind of its channel (R31). -/
def Channel.fits : Channel → Position → Bool
  | .damper _, .damper _ => true
  | .fan _, .fan _ => true
  | _, _ => false

/-- The position as posted (R32): an ON speed below the fan's minimum is raised to it. -/
def Channel.raised : Channel → Position → Position
  | .fan f, .fan (.on v) => .fan (.on (max f.cfg.minSpeed v))
  | _, p => p

def ExecClass.demand : ExecClass → DemandClass
  | .fire => .fire
  | .test => .test

/-- Entry `e` of step `k` is posted for zone `z`, or ignored (R29 step 2, R31). A first demand of the zone under test on a
channel in a fault state is a FAULT finding (R120). -/
def Works.postEntry (order : List ZoneId) (z : ZoneId) (k : Nat) (w : Works) (e : PlanEntry) : Works :=
  match w.ctx z with
  | none => w
  | some c =>
    let ch := w.plant.chans.look e.act
    if !ch.fits e.pos then
      (w.modCtx z fun c => { c with ignored := c.ignored + 1 }).report .planEntryIgnored (some (.zone z)) (some (.step k))
        (some (.actuator e.act))
    else
      let p := ch.raised e.pos
      let w :=
        if c.cls = .test ∧ ch.isFault ∧ !c.holds e.act then
          { w with ts := w.ts.addFinding (faultFinding e.act (w.plant.lastTravel e.act)) }
        else w
      let w := w.onPlant fun x => x.post order e.act ⟨c.cls.demand, .zone z, p⟩
      w.modCtx z fun c =>
        { c with
          posted := recordPosted e.act p c.posted
          proof := if e.prove then c.proof ++ [(e.act, p)] else c.proof }

/-- The zone enters step `k` of its plan (R29). The proof evaluated at posting cannot end the step, since its dwell has only
been started (R35). The other zones judge once, after the whole posting, and not between its entries.
Log entry 8: DEDUCED, unsafe. -/
def Works.enterStep (m : Pmc) (order : List ZoneId) (z : ZoneId) (k : Nat) (w : Works) : Works :=
  match w.ctx z with
  | none => w
  | some c =>
    match c.plan.block with
    | none => w
    | some b =>
      let r := m.planStep b k
      let w := w.modCtx z fun c =>
        { c with step := k, phase := .sequencing, proof := [], dwell := .stopped, timeout := none }
      let w := r.entries.foldl (Works.postEntry order z k) w
      w.modCtx z fun c =>
        { c with
          dwell := .running (w.plant.now + r.dwell * 1000)
          timeout := some (w.plant.now + r.timeout * 1000) }

/-! ### The end of a step (R35, R36, R38) -/

/-- Arrival at ESTABLISHED is handed to the Test Sequencer, which starts the hold timer for the zone under test (R38,
R121). -/
def Works.established (w : Works) (z : ZoneId) : Works :=
  match w.ts.test with
  | some u =>
    if u.zone = z then
      { w with ts := { w.ts with test := some { u with phase := .hold (w.plant.now + u.hold * 1000) } } }
    else w
  | none => w

/-- The zone advances after step `k` (R38). -/
def Works.advance (m : Pmc) (order : List ZoneId) (z : ZoneId) (w : Works) : Works :=
  match w.ctx z with
  | none => w
  | some c =>
    if c.step < c.steps then w.enterStep m order z (c.step + 1)
    else
      (w.modCtx z fun c => { c with phase := .established, proof := [], dwell := .stopped, timeout := none }).established z

/-- The entries of the proof set that are contested, in the order written (R35). -/
def Plant.contestedActs (x : Plant) (c : Ctx) : List ActId := (c.proof.filter x.contested).map Prod.fst

/-- The entries of the proof set that are neither proven nor contested, in the order written (R36). -/
def Plant.unprovenActs (x : Plant) (c : Ctx) : List ActId :=
  (c.proof.filter fun e => !(x.proven e || x.contested e)).map Prod.fst

/-- The current step ends COMPLETE (R35). -/
def Works.endComplete (m : Pmc) (order : List ZoneId) (z : ZoneId) (w : Works) : Works :=
  match w.ctx z with
  | none => w
  | some c =>
    let contested := w.plant.contestedActs c
    let w := w.modCtx z fun c =>
      { c with dwell := .stopped, timeout := none, outcomes := c.outcomes ++ [⟨.complete, contested, []⟩] }
    (w.report .stepDone (some (.zone z)) (some (.step c.step)) (some (.count contested.length))).advance m order z

/-- The current step ends INCOMPLETE at its step timeout (R36). A timeout taken before an equal dwell ends the step so by R37
even where proof holds; the list of unproven actuators, of which R39 says that it holds at least one, is then empty.
Log entry 34: DESIGN CHOICE, unsafe. -/
def Works.endIncomplete (m : Pmc) (order : List ZoneId) (z : ZoneId) (w : Works) : Works :=
  match w.ctx z with
  | none => w
  | some c =>
    let contested := w.plant.contestedActs c
    let unproven := w.plant.unprovenActs c
    let w := w.modCtx z fun c =>
      { c with dwell := .stopped, timeout := none, outcomes := c.outcomes ++ [⟨.incomplete, contested, unproven⟩] }
    (w.report .stepIncomplete (some (.zone z)) (some (.step c.step)) (some (.count unproven.length))).advance m order z

/-- The zone evaluates the proof of its current step (R34, R35). -/
def Works.judge (m : Pmc) (order : List ZoneId) (z : ZoneId) (w : Works) : Works :=
  match w.ctx z with
  | none => w
  | some c =>
    if c.phase = .sequencing ∧ c.dwell = .expired ∧ w.plant.proofHolds c then w.endComplete m order z else w

/-! ### Evaluations that changes call for (R34, R51) -/

/-- The zones that may evaluate, in their order: the fire order, then the zone under test. -/
def Works.judges (order : List ZoneId) (w : Works) : List ZoneId :=
  order ++ (match w.ts.test with
    | some u => [u.zone]
    | none => [])

/-- The zone's proof set holds one of the changed channels. -/
def Works.concerned (w : Works) (z : ZoneId) (due : List ActId) : Bool :=
  match w.ctx z with
  | some c => c.proof.any fun e => due.contains e.1
  | none => false

/-- The zones whose proof sets hold a changed channel evaluate, one at a time (R34). -/
def Works.round (m : Pmc) (order : List ZoneId) (w : Works) : Works :=
  let due := w.plant.pxDue
  let w := { w with plant := { w.plant with pxDue := [] } }
  (w.judges order).foldl (fun w z => if w.concerned z due then w.judge m order z else w) w

/-- The Test Sequencer and the Plan Executor take the changes handed to them, and those that the steps posted meanwhile
cause, until none is left (R34, R51). Log entry 8: DEDUCED, unsafe. -/
def Works.settleFor (m : Pmc) (order : List ZoneId) : Nat → Works → Works
  | 0, w => w
  | n + 1, w =>
    let w := w.takeNotes
    if w.plant.pxDue.isEmpty then w else Works.settleFor m order n (w.round m order)

/-- Rounds enough for one event: a zone whose step ends starts its dwell afresh, so it ends at most one step in an event, and
a round in which no step ends hands no further change; there are 48 zones. -/
def settleRounds : Nat := 51

def Works.settle (m : Pmc) (order : List ZoneId) (w : Works) : Works := w.settleFor m order settleRounds

/-! ### Beginning and ending execution (R20, R27, R28, R42) -/

/-- The Plan Executor takes a zone that begins executing (R20, R27, R28): plan in use, PLAN_MISSING, step 1. The other zones
judge after the whole posting of step 1, as after the posting at a step's end (R34, R51). Log entry 8: DEDUCED, unsafe. -/
def Works.begin (m : Pmc) (order : List ZoneId) (z : ZoneId) (cls : ExecClass) (planBlock : Option BlockId)
    (w : Works) : Works :=
  let plan := m.choosePlan planBlock
  let c : Ctx :=
    { plan, steps := match plan.block with
        | some b => m.planSteps b
        | none => 0
      step := 1, phase := .established, cls, posted := [], proof := [], dwell := .stopped, timeout := none, ignored := 0
      outcomes := [] }
  let w := w.setCtx z (some c)
  let w := match plan with
    | .own _ => w
    | .fallback => w.report .planMissing (some (.zone z)) (some (.block 0)) (some (.planMissing .fallback))
    | .none => w.report .planMissing (some (.zone z)) none (some (.planMissing .none))
  (w.enterStep m order z 1).settle m order

/-- The Plan Executor withdraws the demands of a zone that stops executing, in ascending actuator number, and discards its
context (R42). The zone itself evaluates no more. Log entry 9: DEDUCED, unsafe. -/
def Works.withdraw (m : Pmc) (order : List ZoneId) (z : ZoneId) (w : Works) : Works :=
  match w.ctx z with
  | none => w
  | some c =>
    c.posted.foldl (fun w r => (w.onPlant fun x => x.drop (.zone z) r.1).settle m order) (w.setCtx z none)

/-- The Demand Resolver moves the FIRE entries of every list to a new fire order, in ascending actuator number (R53).
Log entry 10: DEDUCED, unsafe. -/
def Works.reorder (m : Pmc) (order : List ZoneId) (w : Works) : Works :=
  allActs.foldl (fun w a => (w.onPlant fun x => x.reorder order a).settle m order) w

/-- The Demand Resolver withdraws every NORMAL entry, in ascending actuator number (R60, R62). -/
def Works.withdrawNormals (m : Pmc) (order : List ZoneId) (w : Works) : Works :=
  allActs.foldl (fun w a => (w.onPlant fun x => x.drop .bl a).settle m order) w

/-! ### Step timers (R35 to R37) -/

/-- The dwell timer of zone `z` expires (R35). -/
def Works.dwellExpiry (m : Pmc) (order : List ZoneId) (z : ZoneId) (w : Works) : Works :=
  match w.ctx z with
  | some c =>
    match c.dwell with
    | .running d =>
      (((w.onPlant fun x => x.reach d).modCtx z fun c => { c with dwell := .expired }).judge m order z).settle m order
    | _ => w
  | none => w

/-- The step timeout timer of zone `z` expires (R36). -/
def Works.stepTimeoutExpiry (m : Pmc) (order : List ZoneId) (z : ZoneId) (w : Works) : Works :=
  match w.ctx z with
  | some c =>
    match c.timeout with
    | some d => ((w.onPlant fun x => x.reach d).endIncomplete m order z).settle m order
    | none => w
  | none => w

/-- A change of the channel side, and all that it calls for. -/
def Works.change (m : Pmc) (order : List ZoneId) (w : Works) (g : Plant → Plant) : Works :=
  (w.onPlant g).settle m order

end Sys2Proof.Machine
end

