-- ==== Sys2Proof/Machine/Zones.lean ====
section
/-!
DEFINITION. The Incident Controller (R1 to R23) and the Test Sequencer (R116 to R126): ranks and the fire order, admission,
re-evaluation, incident start and end, purge, the firefighter modes, and the start and the closing of a test.
-/

namespace Sys2Proof.Machine

/-! ### Zone table -/

def Incident.zone (ic : Incident) (z : ZoneId) : Zone := ic.zones.look z

def Incident.config (ic : Incident) (z : ZoneId) : ZoneCfg := ic.cfg.look z

def Incident.modZone (ic : Incident) (z : ZoneId) (g : Zone → Zone) : Incident :=
  { ic with zones := ic.zones.put z (g (ic.zone z)) }

def Site.modZone (x : Site) (z : ZoneId) (g : Zone → Zone) : Site := { x with ic := x.ic.modZone z g }

def Site.zone (x : Site) (z : ZoneId) : Zone := x.ic.zone z

/-- The works changed, under the fire order as it stands. -/
def Site.onWorks (x : Site) (g : Works → Works) : Site := { x with works := g x.works }

/-- A ZONE_STATE report of zone `z` as it stands now (R22). -/
def Site.reportZone (x : Site) (z : ZoneId) (c : ZoneCause) : Site :=
  x.report .zoneState (some (.zone z)) (some (.zone (x.zone z).state)) (some (.zoneCause c))

/-- The lead zone (R4). -/
def Incident.lead (ic : Incident) : Option ZoneId := ic.fireOrder.head?

/-! ### Ranks and the fire order (R4, R5) -/

def Incident.rankOf (ic : Incident) (z : ZoneId) : Nat := (ic.zone z).rank.getD 0

/-- The place of a zone in the fire order: origin FF first, then by rank (R4). -/
def Incident.orderKey (ic : Incident) (z : ZoneId) : Nat :=
  if (ic.zone z).origin = some .ff then ic.rankOf z else Config.max32 + 1 + ic.rankOf z

/-- Zone `z` put in the place in the fire order that its origin and rank give (R4). -/
def Incident.place (ic : Incident) (z : ZoneId) : Incident :=
  { ic with fireOrder := insertByKey ic.orderKey z (ic.fireOrder.filter (· != z)) }

/-- The zones of the list take the ranks `n`, `n + 1` and so on. -/
def Incident.rankFrom (ic : Incident) (n : Nat) : List ZoneId → Incident
  | [] => ic
  | z :: zs => Incident.rankFrom (ic.modZone z fun r => { r with rank := some n }) (n + 1) zs

/-- The renumbering of R5: the zones of the fire order take 1, 2, 3 and so on in ascending order of their ranks. -/
def Incident.renumber (ic : Incident) : Incident :=
  { ic.rankFrom 1 (sortByKey ic.rankOf ic.fireOrder) with rank := ic.fireOrder.length }

/-- A rank is about to be given (R5): the counter at its limit is renumbered first, then raised by 1. The rank given is the
counter's new value. -/
def Incident.nextRank (ic : Incident) : Incident :=
  let jc := if ic.rank = Config.max32 then ic.renumber else ic
  { jc with rank := jc.rank + 1 }

/-- A zone becomes ACTIVE from outside the fire order (R7, R13, R17, R20): next rank, its place in the fire order, its report,
and the beginning of its plan. -/
def Site.becomeActive (m : Pmc) (z : ZoneId) (o : Origin) (c : ZoneCause) (x : Site) : Site :=
  let ic := x.ic.nextRank
  let ic := (ic.modZone z fun r => { r with state := .active, origin := some o, rank := some ic.rank, purge := none }).place z
  let x := { x with ic := { ic with lockedOut := ic.lockedOut.filter (· != z) } }
  (x.reportZone z c).onWorks (Works.begin m x.ic.fireOrder z .fire (x.ic.config z).planBlock)

/-- Incident start at the Demand Resolver (R18, R60). -/
def Site.startIncident (m : Pmc) (x : Site) : Site := x.onWorks (Works.withdrawNormals m x.ic.fireOrder)

/-! ### Admission and re-evaluation (R7, R17) -/

/-- The lead zone's compatible set names zone `z`. -/
def Incident.compatible (ic : Incident) (z : ZoneId) : Bool :=
  match ic.lead with
  | some l => (ic.config l).compatible.contains z
  | none => false

/-- A zone is locked out (R7 case 3). -/
def Site.lockOut (z : ZoneId) (c : ZoneCause) (x : Site) : Site :=
  let x := x.modZone z fun r => { r with state := .lockedOut }
  let x := { x with ic := { x.ic with lockedOut := x.ic.lockedOut.filter (· != z) ++ [z] } }
  x.reportZone z c

/-- The admission rule (R7), for an ALARM or SET ZONE MODE(AUTO): case 1 is incident start. -/
def Site.takeIn (m : Pmc) (z : ZoneId) (c : ZoneCause) (x : Site) : Site :=
  if x.ic.fireOrder.isEmpty then (x.becomeActive m z .alarm c).startIncident m
  else if x.ic.compatible z then x.becomeActive m z .alarm c
  else x.lockOut z c

/-- The admission rule applied to a zone of the locked-out list (R17): case 3 leaves it in its place. -/
def Site.reAdmit (m : Pmc) (x : Site) (z : ZoneId) : Site :=
  if x.ic.fireOrder.isEmpty || x.ic.compatible z then x.becomeActive m z .alarm .reEvaluation else x

/-- Re-evaluation: a walk of the locked-out list from head to tail (R17). -/
def Site.reEvaluate (m : Pmc) (x : Site) : Site := x.ic.lockedOut.foldl (Site.reAdmit m) x

/-- What follows a change of the fire order (R16, R19): an empty one ends the incident, the rank counter returning to 0 and
the locked-out list judged again; a new head is a lead change and brings re-evaluation. `head` is the head before. -/
def Site.afterOrder (m : Pmc) (head : Option ZoneId) (x : Site) : Site :=
  if x.ic.fireOrder.isEmpty then Site.reEvaluate m { x with ic := { x.ic with rank := 0 } }
  else if x.ic.lead = head then x
  else x.reEvaluate m

/-! ### Leaving the fire order (R11, R14) -/

/-- Zone `z` takes state `st` outside the fire order and the locked-out list, stops executing, and its demands are withdrawn
(R11, R14, R20, R42); a lead change or incident end follows if it stood in the fire order. Until its entries are withdrawn
they keep the place they had, so the lists are kept by the order before the change. -/
def Site.leave (m : Pmc) (z : ZoneId) (st : ZoneState) (c : ZoneCause) (x : Site) : Site :=
  let head := x.ic.lead
  let order := x.ic.fireOrder
  let was := order.contains z
  let ic := x.ic.modZone z fun r => { r with state := st, origin := none, rank := none, purge := none }
  let ic := { ic with fireOrder := ic.fireOrder.filter (· != z), lockedOut := ic.lockedOut.filter (· != z) }
  let x := ({ x with ic := ic }.reportZone z c).onWorks (Works.withdraw m order z)
  if was then x.afterOrder m head else x

/-- Purge expiry of zone `z` (R11). -/
def Site.purgeExpiry (m : Pmc) (z : ZoneId) (x : Site) : Site :=
  let r := x.zone z
  match r.state, r.purge with
  | .restoring, some d => (x.onWorks fun w => w.onPlant fun p => p.reach d).leave m z .normal .purgeExpiry
  | _, _ => x

/-! ### The start and the closing of a test -/

/-- The outcome of a test closed by hold expiry (R123). -/
def testOutcome (steps : List StepOutcome) (findings : List Finding) : TestOutcome :=
  if steps.any (fun s => s.result == .incomplete) || findings.any (fun f => f.kind == .fault) then .fail
  else if findings.any (fun f => f.kind == .slow) then .passSlow
  else .pass

/-- The detail of TEST_RESULT (R126): the abort cause, or the number of findings. -/
def TestRecord.resultDetail (r : TestRecord) : Detail :=
  match r.cause with
  | some c => .abortCause c
  | none => .count r.findings.length

/-- A test is closed (R122, R124): record, zone back to NORMAL with its report, withdrawal, TEST_RESULT. `cause` is the abort
cause, none for hold expiry. -/
def Site.closeTest (m : Pmc) (cause : Option AbortCause) (x : Site) : Site :=
  match x.works.ts.test with
  | none => x
  | some u =>
    let z := u.zone
    let old := x.works.ts.records.look z
    let steps := match x.works.ctx z with
      | some c => c.outcomes
      | none => []
    let outcome := match cause with
      | some _ => TestOutcome.aborted
      | none => testOutcome steps old.findings
    let entry : TestRecord := { old with outcome, cause, stop := some x.works.plant.stamp, steps }
    let x := x.onWorks fun w => { w with ts := { w.ts with records := w.ts.records.put z entry } }
    let x := (x.modZone z fun r => { r with state := .normal }).reportZone z .test
    let x := x.onWorks (Works.withdraw m x.ic.fireOrder z)
    let x := x.onWorks fun w => { w with ts := { w.ts with test := none } }
    x.report .testResult (some (.zone z)) (some (.test outcome)) (some entry.resultDetail)

/-- A running test is aborted with a cause (R124); nothing without one. -/
def Site.abortTest (m : Pmc) (c : AbortCause) (x : Site) : Site := x.closeTest m (some c)

/-- Hold expiry closes the test (R122). -/
def Site.holdExpiry (m : Pmc) (x : Site) : Site :=
  match x.works.ts.test with
  | some u =>
    match u.phase with
    | .hold d => (x.onWorks fun w => w.onPlant fun p => p.reach d).closeTest m none
    | .plan => x
  | none => x

/-- An accepted TEST ZONE (R119): the open record, the test in progress, TESTING with its report, and the zone's own plan. -/
def Site.startTest (m : Pmc) (z : ZoneId) (hold : Nat) (x : Site) : Site :=
  let entry : TestRecord := ⟨.none, none, some hold, some x.works.plant.stamp, none, [], []⟩
  let x := x.onWorks fun w => { w with ts := ⟨some ⟨z, hold, .plan⟩, w.ts.records.put z entry⟩ }
  let x := (x.modZone z fun r => { r with state := .testing }).reportZone z .test
  x.onWorks (Works.begin m x.ic.fireOrder z .test (x.ic.config z).planBlock)

/-! ### ALARM and RESTORE (R8 to R10) -/

/-- An accepted ALARM of zone `z` from line `l` (R8, R9). -/
def Site.alarm (m : Pmc) (l : Line) (z : ZoneId) (x : Site) : Site :=
  let x := (x.abortTest m .alarm).modZone z fun r => { r with holders := r.holders.add l }
  match (x.zone z).state with
  | .normal | .testing => x.takeIn m z .alarm
  | .restoring => (x.modZone z fun r => { r with state := .active, purge := none }).reportZone z .alarm
  | .lockedOut | .active | .heldOff => x

/-- Zone `z` begins its purge now (R10, R15). -/
def Site.beginPurge (z : ZoneId) (x : Site) : Site :=
  x.modZone z fun r =>
    { r with state := .restoring, purge := some (x.works.plant.now + (x.ic.config z).purgeTime * 1000) }

/-- An accepted RESTORE of zone `z` from line `l` (R10). -/
def Site.restore (m : Pmc) (l : Line) (z : ZoneId) (x : Site) : Site :=
  let x := x.modZone z fun r => { r with holders := r.holders.remove l }
  if !(x.zone z).holders.isEmpty then x
  else
    match (x.zone z).state with
    | .active => if (x.zone z).origin = some .alarm then (x.beginPurge z).reportZone z .restore else x
    | .lockedOut => x.leave m z .normal .restore
    | .normal | .restoring | .heldOff | .testing => x

/-! ### SET ZONE MODE (R12 to R15) -/

/-- A change of origin of a zone in the fire order (R4, R13, R15): its place, its report, the move of its FIRE entries, and a
lead change where another zone now heads the order. -/
def Site.moveOrigin (m : Pmc) (z : ZoneId) (c : ZoneCause) (head : Option ZoneId) (x : Site) : Site :=
  let x := { x with ic := x.ic.place z }.reportZone z c
  (x.onWorks (Works.reorder m x.ic.fireOrder)).afterOrder m head

/-- SET ZONE MODE(z, EXTRACT) (R13). -/
def Site.extract (m : Pmc) (z : ZoneId) (x : Site) : Site :=
  let head := x.ic.lead
  let r := x.zone z
  match r.state with
  | .normal | .heldOff | .lockedOut | .testing =>
    let starts := x.ic.fireOrder.isEmpty
    let y := x.becomeActive m z .ff .ffExtract
    if starts then y.startIncident m else y.afterOrder m head
  | .active | .restoring =>
    if r.state = .active ∧ r.origin = some .ff then x
    else
      let ic := x.ic.nextRank
      let ic := ic.modZone z fun r => { r with state := .active, origin := some .ff, rank := some ic.rank, purge := none }
      Site.moveOrigin m z .ffExtract head { x with ic := ic }

/-- SET ZONE MODE(z, OFF) (R14). -/
def Site.holdOff (m : Pmc) (z : ZoneId) (x : Site) : Site :=
  if (x.zone z).state = .heldOff then x else x.leave m z .heldOff .ffOff

/-- SET ZONE MODE(z, AUTO) (R15). -/
def Site.handBack (m : Pmc) (z : ZoneId) (x : Site) : Site :=
  let head := x.ic.lead
  let r := x.zone z
  match r.state with
  | .heldOff =>
    if r.holders.isEmpty then (x.modZone z fun r => { r with state := .normal }).reportZone z .ffAuto
    else x.takeIn m z .ffAuto
  | .active =>
    if r.origin = some .ff then
      let y := if r.holders.isEmpty then x.beginPurge z else x
      (y.modZone z fun r => { r with origin := some .alarm }).moveOrigin m z .ffAuto head
    else x
  | .normal | .lockedOut | .restoring | .testing => x

/-- An accepted SET ZONE MODE (R12): a running test is aborted, the mode recorded, and the mode's rule applied. -/
def Site.setMode (m : Pmc) (z : ZoneId) (mode : ZoneMode) (x : Site) : Site :=
  let x := (x.abortTest m .ff).modZone z fun r => { r with ffMode := mode }
  match mode with
  | .extract => x.extract m z
  | .off => x.holdOff m z
  | .auto => x.handBack m z

end Sys2Proof.Machine
end

