-- ==== Sys2Proof/Machine/Formats.lean ====
section
/-!
DEFINITION. The byte layouts of replies, reports and table records (R171 to R175), and the frame that carries a reply (R145).
An enumerated value is sent as the code its layout gives or, without one, as its place in the order its rule lists (R171).
-/

namespace Sys2Proof.Machine

/-! ### Codes -/

def flagByte (b : Bool) : Byte := if b then 0x01#8 else 0x00#8

/-- A two-valued field whose rule lists the value `b` first: 0 for it, 1 for the other (R171).
Log entry 21: DEDUCED, unsafe. -/
def firstListed (b : Bool) : Byte := if b then 0x00#8 else 0x01#8

/-- A presence byte: one bit for each optional field, from bit 0 (R171). -/
def presence (l : List Bool) : Byte := byteOf ((l.zipIdx.map fun p => if p.1 then 2 ^ p.2 else 0).sum)

/-- An optional byte: filled with 0 when absent (R171). -/
def orZero (o : Option Byte) : Byte := o.getD 0x00#8

/-- An optional 4-byte number: filled with 0 when absent (R171). -/
def orZero4 (o : Option Nat) : List Byte := bytes4 (o.getD 0)

def zoneByte (z : ZoneId) : Byte := byteOf (z.val + 1)
def actByte (a : ActId) : Byte := byteOf (a.val + 1)
def groupByte (g : GroupId) : Byte := byteOf (g.val + 1)
def blockByte (b : BlockId) : Byte := byteOf b.val

/-- A configured group, none as 0 (R173). -/
def optGroupByte (g : Option GroupId) : Byte := orZero (g.map groupByte)

def LineSet.code (l : LineSet) : Byte := presence [l.al1, l.al2, l.al3, l.al4]

def DamperPos.code : DamperPos → Byte
  | .opened => 0x00#8
  | .closed => 0x01#8

def FanTarget.code : FanTarget → Byte
  | .off => 0x02#8
  | .on _ => 0x03#8

def Position.code : Position → Byte
  | .damper p => p.code
  | .fan t => t.code

/-- The speed sent beside a position; read only for ON (R171). -/
def Position.speed : Position → Nat
  | .damper _ => 0
  | .fan t => t.speed

/-- The originator of a demand: 0 absent, the zone, 49 FF, 50 BL (R171). -/
def originatorCode : Option Originator → Byte
  | none => 0x00#8
  | some (.zone z) => zoneByte z
  | some .ff => 49#8
  | some .bl => 50#8

def ResolvedClass.code : ResolvedClass → Byte
  | .manual => 0#8 | .fire => 1#8 | .test => 2#8 | .normal => 3#8 | .rest => 4#8

def Role.code : Role → Byte
  | .path => 0#8 | .inlet => 1#8

def DamperState.code : DamperState → Byte
  | .atOpen => 0#8 | .atClosed => 1#8 | .opening => 2#8 | .closing => 3#8 | .travelFault => 4#8 | .switchFault => 5#8

def TravelCause.code : TravelCause → Byte
  | .command => 0#8 | .drift => 1#8 | .start => 2#8 | .switchClear => 3#8

/-- UNASSIGNED is 0 in the list of fan states. -/
def FanState.code : FanState → Byte
  | .stopped => 1#8 | .waitInterlock => 2#8 | .waitPermit => 3#8 | .starting => 4#8 | .running => 5#8
  | .runFault => 6#8 | .stopping => 7#8 | .stopFault => 8#8

def FaultCause.code : FaultCause → Byte
  | .noProof => 0#8 | .proofLost => 1#8

def StopCause.code : StopCause → Byte
  | .command => 0#8 | .interlock => 1#8 | .shed => 2#8 | .start => 3#8

def JoinCause.code : JoinCause → Byte
  | .new => 0#8 | .shed => 1#8

def ZoneState.code : ZoneState → Byte
  | .normal => 0#8 | .lockedOut => 1#8 | .active => 2#8 | .restoring => 3#8 | .heldOff => 4#8 | .testing => 5#8

def ffModeCode : ZoneMode → Byte
  | .auto => 0#8 | .extract => 1#8 | .off => 2#8

def Origin.code : Origin → Byte
  | .alarm => 0#8 | .ff => 1#8

def PlanInUse.code : PlanInUse → Byte
  | .own _ => 0#8 | .fallback => 1#8 | .none => 2#8

def Phase.code : Phase → Byte
  | .sequencing => 0#8 | .established => 1#8

def StepResult.code : StepResult → Byte
  | .complete => 0#8 | .incomplete => 1#8

def TestOutcome.code : TestOutcome → Byte
  | .none => 0#8 | .pass => 1#8 | .passSlow => 2#8 | .fail => 3#8 | .aborted => 4#8

def AbortCause.code : AbortCause → Byte
  | .alarm => 0#8 | .ff => 1#8 | .abortTest => 2#8 | .blSilent => 3#8 | .reset => 4#8

def FindingKind.code : FindingKind → Byte
  | .fault => 0#8 | .slow => 1#8

def PosCond.code : PosCond → Byte
  | .unwritten => 0#8 | .written => 1#8 | .incomplete => 2#8

def BlockState.code : BlockState → Byte
  | .blank => 0#8 | .opened => 1#8 | .valid => 2#8 | .corrupt => 3#8 | .erasing => 4#8

def LockState.code : LockState → Byte
  | .unlocked => 0#8 | .locked => 1#8 | .lockedDown => 2#8

def OpKind.code : OpKind → Byte
  | .erase => 0#8 | .write => 1#8 | .commit => 2#8

def LinkState.code : LinkState → Byte
  | .online => 0#8 | .silent => 1#8

def Ctrl.code : Ctrl → Byte
  | .ready => 0#8 | .eraseSetup _ => 1#8 | .busy _ _ => 2#8 | .suspended _ _ => 3#8

def Reason.code : Reason → Byte
  | .badArgument => 0x01#8 | .notPermittedOnPort => 0x02#8 | .zoneAbsent => 0x03#8 | .zoneNotPermitted => 0x04#8
  | .fireMode => 0x05#8 | .testRunning => 0x06#8 | .notPermitted => 0x07#8 | .noPlan => 0x08#8
  | .planMemoryBusy => 0x09#8 | .statusUncleared => 0x0A#8 | .noCommissioning => 0x0B#8 | .nothingInProgress => 0x0C#8
  | .sequence => 0x0D#8 | .permission => 0x0E#8 | .lock => 0x0F#8 | .write => 0x10#8 | .planInvalid => 0x11#8

/-! ### Reports (R174) -/

def ReportKind.code : ReportKind → Byte
  | .zoneState => 0#8 | .stepDone => 1#8 | .stepIncomplete => 2#8 | .planMissing => 3#8 | .planEntryIgnored => 4#8
  | .actuatorTarget => 5#8 | .damperState => 6#8 | .travelFault => 7#8 | .travelRecovered => 8#8 | .switchFault => 9#8
  | .fanState => 10#8 | .fanShed => 11#8 | .interlockTrip => 12#8 | .testResult => 13#8 | .linkSilent => 14#8
  | .linkRestored => 15#8 | .planOpDone => 16#8 | .blockCorrupt => 17#8 | .configDefaulted => 18#8
  | .controllerStarted => 19#8

/-- Subject type and subject number (R174). -/
def subjectBytes : Option Subject → List Byte
  | none => [0#8, 0#8]
  | some (.zone z) => [1#8, zoneByte z]
  | some (.actuator a) => [2#8, actByte a]
  | some (.group g) => [3#8, groupByte g]
  | some (.port p) => [4#8, byteOf (p.index.val + 1)]
  | some (.block b) => [5#8, blockByte b]

/-- The new state's byte, and the speed of an ON target (R174). -/
def newStateBytes : Option NewState → List Byte
  | none => 0#8 :: bytes2 0
  | some (.zone x) => x.code :: bytes2 0
  | some (.step k) => byteOf k :: bytes2 0
  | some (.block b) => blockByte b :: bytes2 0
  | some (.target p) => p.code :: bytes2 p.speed
  | some (.damper x) => x.code :: bytes2 0
  | some (.fan x) => x.code :: bytes2 0
  | some (.test x) => x.code :: bytes2 0
  | some (.link x) => x.code :: bytes2 0
  | some (.blockState x) => x.code :: bytes2 0

def ZoneCause.code : ZoneCause → Byte
  | .alarm => 0#8 | .restore => 1#8 | .purgeExpiry => 2#8 | .ffExtract => 3#8 | .ffOff => 4#8 | .ffAuto => 5#8
  | .reEvaluation => 6#8 | .test => 7#8

def PlanMissing.code : PlanMissing → Byte
  | .fallback => 0#8 | .none => 1#8

def DamperCause.code : DamperCause → Byte
  | .command => 0#8 | .drift => 1#8 | .switchClear => 2#8 | .clear => 3#8

def FanCause.code : FanCause → Byte
  | .command => 0#8 | .interlockMade => 1#8 | .interlock => 2#8 | .grant => 3#8 | .proof => 4#8 | .noProof => 5#8
  | .proofLost => 6#8 | .stopped => 7#8 | .runDown => 8#8 | .clear => 9#8

def StartKind.code : StartKind → Byte
  | .powerOn => 0#8 | .resetInput => 1#8 | .restartRequest => 2#8

/-- A cause stands in byte 14 of the report. -/
def causeBytes (b : Byte) : List Byte := [0#8, 0#8, 0#8, b]

/-- Whether a detail is a value, and its four bytes (R174). A class without a zone stands in byte 14, as any other cause.
Log entry 38: DEDUCED, unsafe. -/
def detailBytes : Option Detail → Bool × List Byte
  | none => (false, bytes4 0)
  | some (.zoneCause c) => (false, causeBytes c.code)
  | some (.planMissing c) => (false, causeBytes c.code)
  | some (.cls c (some z)) => (false, [0#8, 0#8, c.code, zoneByte z])
  | some (.cls c none) => (false, causeBytes c.code)
  | some (.damperCause c) => (false, causeBytes c.code)
  | some (.travelCause c) => (false, causeBytes c.code)
  | some (.stateLeft x) => (false, causeBytes x.code)
  | some (.fanCause c) => (false, causeBytes c.code)
  | some (.abortCause c) => (false, causeBytes c.code)
  | some (.op k) => (false, causeBytes k.code)
  | some (.startKind k) => (false, causeBytes k.code)
  | some (.count n) => (true, bytes4 n)
  | some (.actuator a) => (true, bytes4 (a.val + 1))
  | some (.travelTime t) => (true, bytes4 t)
  | some (.capacity l) => (true, bytes4 l)
  | some (.window n) => (true, bytes4 n)
  | some (.recordPosition n) => (true, bytes4 n)

/-- The 15 bytes of a report (R174). -/
def Report.bytes (r : Report) : List Byte :=
  let d := detailBytes r.detail
  [r.kind.code] ++ bytes4 r.stamp ++ subjectBytes r.subject ++ newStateBytes r.newState
    ++ [presence [r.subject.isSome, r.newState.isSome, r.detail.isSome, d.1]] ++ d.2

/-! ### Lists and step outcomes -/

/-- A list: a count byte, then the entries (R171). -/
def listBytes (entries : List (List Byte)) : List Byte := byteOf entries.length :: entries.flatten

def actList (l : List ActId) : List Byte := listBytes (l.map fun a => [actByte a])
def zoneList (l : List ZoneId) : List Byte := listBytes (l.map fun z => [zoneByte z])

/-- The outcome count and eight 3-byte outcome entries (R174). -/
def outcomeBytes (l : List StepOutcome) : List Byte :=
  byteOf l.length
    :: ((l.take 8).flatMap fun o => [o.result.code, byteOf o.contested.length, byteOf o.unproven.length])
      ++ List.replicate ((8 - l.length) * 3) 0#8

/-- One step's outcome with its actuators, after zone and step (R175). -/
def stepBytes (z : ZoneId) (k : Nat) (o : StepOutcome) : List Byte :=
  [zoneByte z, byteOf k, o.result.code] ++ actList o.contested ++ actList o.unproven

/-! ### Table records (R174) -/

/-- The 45 bytes of a zone record (R174). The optional fields are, in their order, origin, rank, plan in use, plan block,
step, phase and purge time remaining. The step outcome list takes no presence bit: an absent one is sent with a count of 0.
Log entry 40: DESIGN CHOICE, unsafe. -/
def zoneRecord (x : Site) (z : ZoneId) : List Byte :=
  let r := x.zone z
  let c := x.works.ctx z
  let block := c.bind fun c => c.plan.block
  let left := r.purge.map fun d => d - x.works.plant.now
  [zoneByte z, firstListed (x.ic.config z).present, r.state.code, r.holders.code, ffModeCode r.ffMode,
    presence [r.origin.isSome, r.rank.isSome, c.isSome, block.isSome, c.isSome, c.isSome, left.isSome],
    orZero (r.origin.map Origin.code)]
    ++ orZero4 r.rank
    ++ [orZero (c.map fun c => c.plan.code), orZero (block.map blockByte), orZero (c.map fun c => byteOf c.step),
      orZero (c.map fun c => c.phase.code)]
    ++ orZero4 left
    ++ [byteOf (x.works.degraded z)]
    ++ outcomeBytes (match c with
        | some c => c.outcomes
        | none => [])

/-- Resolved class and originator of a channel, as a record sends them. -/
def resolvedBytes (x : Plant) (a : ActId) : List Byte :=
  match x.resolved a with
  | some r => [r.cls.code, originatorCode r.orig]
  | none => [0#8, 0#8]

/-- A damper's part of its 24-byte record: the fields of R162 in order, the presence byte standing ahead of the first
optional field (travel cause, last travel, average travel). Log entry 19: DESIGN CHOICE, unsafe. The group is sent as loaded,
for a PATH damper too. Log entry 39: DESIGN CHOICE, unsafe. -/
def damperRecord (x : Plant) (a : ActId) (d : Damper) : List Byte :=
  let i := x.inputs.look a
  let st := x.stats.look a
  [d.cfg.role.code, optGroupByte d.cfg.group, d.state.code, d.target.code] ++ resolvedBytes x a
    ++ [firstListed d.drive, firstListed i.first.debounced, firstListed i.second.debounced,
      presence [d.cause.isSome, st.last.isSome, st.average.isSome], orZero (d.cause.map TravelCause.code)]
    ++ orZero4 st.last ++ orZero4 st.average ++ bytes2 st.count ++ [firstListed st.slow]

/-- A fan's part of its 24-byte record: the fields of R162 in order, the presence byte standing ahead of the optional fault
cause and stop cause; the bytes left over are 0. Log entry 19: DESIGN CHOICE, unsafe. -/
def fanRecord (x : Plant) (a : ActId) (f : Fan) : List Byte :=
  [optGroupByte f.cfg.group, f.state.code, f.target.code] ++ bytes2 f.target.speed ++ resolvedBytes x a
    ++ bytes2 f.demanded ++ bytes2 f.applied ++ bytes2 f.present
    ++ [firstListed (x.inputs.look a).first.debounced, firstListed f.run,
      presence [f.faultCause.isSome, f.stopCause.isSome], orZero (f.faultCause.map FaultCause.code),
      orZero (f.stopCause.map StopCause.code), firstListed f.requeue]
    ++ List.replicate 3 0#8

/-- The 24 bytes of an actuator record (R174). -/
def actRecord (x : Plant) (a : ActId) : List Byte :=
  match x.chans.look a with
  | .damper d => [actByte a, 0#8] ++ damperRecord x a d
  | .fan f => [actByte a, 1#8] ++ fanRecord x a f
  | .unassigned => [actByte a, 2#8] ++ List.replicate 22 0#8

/-- A 7-byte finding (R175). -/
def Finding.bytes (f : Finding) : List Byte :=
  [actByte f.act, f.kind.code, presence [f.last.isSome]] ++ orZero4 f.last

/-- A range read: the number carried, the number the asked range holds, then the records carried (R161, R175). -/
def rangeBytes (limit : Nat) (records : List (List Byte)) : List Byte :=
  [byteOf (min limit records.length), byteOf records.length] ++ (records.take limit).flatten

/-- Most findings one reply carries: 5 leading bytes, 2 counts and 7-byte findings in a body of 200 (R161).
Log entry 20: DEDUCED, unsafe. -/
def findingsPerReply : Nat := 27

/-! ### Replies (R149, R172) -/

/-- The body of a reply (R172). -/
def Reply.body (r : Reply) : List Byte :=
  (match r.refusal with
    | none => [0x80#8]
    | some e => [0x81#8, e.code])
    ++ [presence [r.status.restart, r.status.incident], orZero (r.status.lead.map zoneByte)]
    ++ (match r.status.queue with
      | some q => [byteOf q.1, byteOf q.2]
      | none => [])
    ++ r.fields

/-- The frame that carries a body (R145). -/
def frameOf (body : List Byte) : List Byte :=
  let covered := byteOf body.length :: body
  [0xD3#8, 0x2C#8] ++ covered ++ bytes2 (crc16 covered)

/-- The characters a port in REPLYING sends (R148). -/
def PortRec.sending (p : PortRec) : List Byte :=
  match p.rx with
  | .replying r => frameOf r.body
  | _ => []

/-- The lamp beside the line terminal is lit while the receive state is IN_FRAME (R144). -/
def PortRec.lampLit (p : PortRec) : Bool :=
  match p.rx with
  | .inFrame _ _ => true
  | _ => false

end Sys2Proof.Machine
end

