-- ==== Sys2Proof/Machine/Links.lean ====
section
/-!
DEFINITION. The Link Interface Units (R144 to R155): the taking of a request and its reply, port permissions, supervision, and
the changes of the whole state that a request's owner makes.
-/

namespace Sys2Proof.Machine

/-! ### Changes of the state by its blocks -/

/-- A change that the Incident Controller or the Test Sequencer makes. When it makes the fire order non-empty, incident start
reaches the PMC in the same event (R18, R139). -/
def State.onSite (s : State) (g : Pmc → Site → Site) : State :=
  let x := g s.pmc s.site
  let t := { s with site := x }
  if s.site.ic.fireOrder.isEmpty && !x.ic.fireOrder.isEmpty then
    { t with pmc := s.pmc.incidentStart x.works.plant.now }
  else t

/-- The works changed, and nothing that follows from the change. -/
def State.onWorksOnly (s : State) (g : Works → Works) : State := { s with site := { s.site with works := g s.site.works } }

/-- A change of the works, under the fire order as it stands. -/
def State.onWorks (s : State) (g : Pmc → List ZoneId → Works → Works) : State :=
  s.onWorksOnly (g s.pmc s.site.ic.fireOrder)

/-- A change of the channel side and all that it calls for. -/
def State.onPlant (s : State) (g : Plant → Plant) : State :=
  s.onWorks fun m order w => w.change m order g

/-! ### Ports -/

def State.port (s : State) (p : Port) : PortRec := s.ports.look p.index

def State.modPort (s : State) (p : Port) (g : PortRec → PortRec) : State :=
  { s with ports := s.ports.put p.index (g (s.port p)) }

def State.isRunning (s : State) : Bool := s.mode == .running

/-- The port takes a request: the 6408 is not starting up (R144), and no reply is being sent on it (R148).
Log entry 4: DEDUCED, safe. -/
def State.taking (s : State) (p : Port) : Bool :=
  s.isRunning &&
    match (s.port p).rx with
    | .replying _ => false
    | _ => true

/-- The supervision window of a port, started now with its length; it does not run without supervision (R152). -/
def PortRec.restartWindow (now : Nat) (r : PortRec) : PortRec :=
  { r with window := if r.supervised then some (now + r.windowLen * 1000) else none }

/-- Supervision is served by a valid frame (R152): the window restarted; a SILENT port ONLINE again, with its report. -/
def State.supervise (s : State) (p : Port) : State :=
  let silent := (s.port p).link = .silent
  let t := s.modPort p fun r => { r.restartWindow s.now with link := .online }
  if silent then t.report .linkRestored (some (.port p)) (some (.link .online)) none else t

/-- The report queue of a port (R149); the alarm lines have none. -/
def State.queueOf (s : State) (p : Port) : Option ReportQueue :=
  match p with
  | .alarm _ => none
  | .ff => some s.site.works.plant.ffReports
  | .bl => some s.site.works.plant.blReports

/-- The port status as it stands (R149). -/
def State.statusFor (s : State) (p : Port) : PortStatus :=
  { restart := (s.port p).restart
    incident := s.incident
    lead := s.site.ic.lead
    queue := (s.queueOf p).map fun q => (q.reports.length, q.loss) }

/-- What the owner of a request answers: ACCEPTED with the fields of the reply, or REFUSED with a reason. -/
abbrev Answer := Except Reason (List Byte)

/-- The owner of a request acts on the state or refuses (R148 step 5). -/
abbrev Owner := State → State × Answer

/-- The reply is formed once the owner has acted, and is being sent (R148 step 6). -/
def State.reply (s : State) (p : Port) (a : Answer) : State :=
  let r : Reply := match a with
    | .ok fields => ⟨none, s.statusFor p, fields⟩
    | .error e => ⟨some e, s.statusFor p, []⟩
  s.modPort p fun x => { x with rx := .replying r }

/-- A valid frame with a request completes on port `p` (R148): supervision, permission, owner, reply. A port that takes no
request ignores it. -/
def State.serve (permitted : Port → Bool) (owner : Owner) (p : Port) (s : State) : State :=
  if s.taking p then
    let s := s.supervise p
    let r := if permitted p then owner s else (s, .error .notPermittedOnPort)
    r.1.reply p r.2
  else s

/-! ### Permissions (R150) -/

def Port.every (_ : Port) : Bool := true

def Port.isAlarm : Port → Bool
  | .alarm _ => true
  | _ => false

def Port.isFf : Port → Bool
  | .ff => true
  | _ => false

def Port.isBl : Port → Bool
  | .bl => true
  | _ => false

def Port.isStation (p : Port) : Bool := Sys2Proof.Machine.Port.isFf p || Sys2Proof.Machine.Port.isBl p

/-! ### Owners' answers -/

/-- The owner refuses; the state stays as it was. -/
def refuse (e : Reason) : Owner := fun s => (s, .error e)

/-- The owner accepts a change of the state; the reply carries no fields. -/
def accept (s : State) : State × Answer := (s, .ok [])

/-- An owner that needs the body's fields: a malformed body is refused BAD_ARGUMENT (R171). -/
def withFields {α : Type} (b : Body α) (k : α → Owner) : Owner :=
  match b with
  | .fields a => k a
  | .malformed => refuse .badArgument

/-- An owner that needs an identifier: one out of range is refused BAD_ARGUMENT (R171). -/
def withId {α : Type} (o : Option α) (k : α → Owner) : Owner :=
  match o with
  | some a => k a
  | none => refuse .badArgument

/-- The owner refuses with `e` unless the state passes a check. -/
def require (ok : State → Bool) (e : Reason) (k : Owner) : Owner := fun s => if ok s then k s else (s, .error e)

end Sys2Proof.Machine
end

