-- ==== Sys2Proof/Machine/TimerEvents.lean ====
section
/-!
DEFINITION. The expiries of the zones', the test's and the channels' timers, and the slew update. Each acts where its timer
runs, the Timebase then standing at its deadline or later; elsewhere nothing expires. No timer runs during start-up (R165).
-/

namespace Sys2Proof.Machine

/-- A change that is taken only while the 6408 runs. -/
def State.whenRunning (s : State) (g : State → State) : State := if s.isRunning then g s else s

/-- PURGE_EXPIRY of zone `z` (R11). -/
def execPurgeExpiry (z : ZoneId) (s : State) : Host.Outcome State Fault Refusal :=
  .next (s.whenRunning fun s => s.onSite fun m x => x.purgeExpiry m z)

/-- DWELL_EXPIRY of zone `z` (R35). -/
def execDwellExpiry (z : ZoneId) (s : State) : Host.Outcome State Fault Refusal :=
  .next (s.whenRunning fun s => s.onWorks fun m order w => w.dwellExpiry m order z)

/-- STEP_TIMEOUT_EXPIRY of zone `z` (R36). -/
def execStepTimeoutExpiry (z : ZoneId) (s : State) : Host.Outcome State Fault Refusal :=
  .next (s.whenRunning fun s => s.onWorks fun m order w => w.stepTimeoutExpiry m order z)

/-- HOLD_EXPIRY (R122). -/
def execHoldExpiry (s : State) : Host.Outcome State Fault Refusal :=
  .next (s.whenRunning fun s => s.onSite fun m x => x.holdExpiry m)

/-- TRAVEL_TIMER_EXPIRY of damper `a` (R74). -/
def execTravelTimerExpiry (a : ActId) (s : State) : Host.Outcome State Fault Refusal :=
  .next (s.whenRunning fun s => s.onPlant fun x => x.travelExpiry a)

/-- PROOF_TIMER_EXPIRY of fan `a` (R90). -/
def execProofTimerExpiry (a : ActId) (s : State) : Host.Outcome State Fault Refusal :=
  .next (s.whenRunning fun s => s.onPlant fun x => x.proofExpiry a)

/-- RUN_DOWN_EXPIRY of fan `a` (R92). -/
def execRunDownExpiry (a : ActId) (s : State) : Host.Outcome State Fault Refusal :=
  .next (s.whenRunning fun s => s.onPlant fun x => x.runDownExpiry a)

/-- STAGGER_EXPIRY (R99). -/
def execStaggerExpiry (s : State) : Host.Outcome State Fault Refusal :=
  .next (s.whenRunning fun s => s.onPlant Plant.staggerExpiry)

/-- SLEW_UPDATE (R94). -/
def execSlewUpdate (s : State) : Host.Outcome State Fault Refusal :=
  .next (s.whenRunning fun s => s.onPlant Plant.slewUpdate)

end Sys2Proof.Machine
end

