-- ==== Sys2Proof/Machine/ArrayEvents.lean ====
section
/-!
DEFINITION. The completions of plan-memory operations (R130, R135 to R137). A completion is taken only of an operation of its
kind that is in progress.
-/

namespace Sys2Proof.Machine

/-- The controller changed by `g` as the operation of kind `k` on block `b` ends at time `d` (R130): READY, the target locked
where the commissioning input has turned off (R141), then PLAN_OP_DONE with the block's new state. -/
def State.endOp (s : State) (k : OpKind) (b : BlockId) (d : Nat) (g : Pmc → Pmc) : State :=
  let m := { (g s.pmc).lockIfOff b with ctrl := .ready }
  let t := { s with pmc := m }.onWorksOnly fun w => w.onPlant fun x => x.reach d
  t.report .planOpDone (some (.block b)) (some (.blockState (m.block b).state)) (some (.op k))

/-- What an erase leaves of its block (R135): every position UNWRITTEN, the commit mark gone, BLANK if the verify passes and
CORRUPT with its erase mark and the ERASE flag if it fails. -/
def Pmc.erased (b : BlockId) (verified : Bool) (m : Pmc) : Pmc :=
  let n := { m.modBlock b fun x =>
      { x with
        conds := Table.all 32 .unwritten
        commitMark := none
        eraseMark := !verified
        state := if verified then .blank else .corrupt } with
    mem := Memory.eraseBlock m.mem b }
  if verified then n else n.raise .erase

/-- ERASE_COMPLETION (R135). -/
def execEraseCompletion (verified : Bool) (s : State) : Host.Outcome State Fault Refusal :=
  .next (s.whenRunning fun s =>
    match s.pmc.ctrl with
    | .busy (.erase b) d => s.endOp .erase b d (Pmc.erased b verified)
    | _ => s)

/-- WRITE_COMPLETION (R136). -/
def execWriteCompletion (s : State) : Host.Outcome State Fault Refusal :=
  .next (s.whenRunning fun s =>
    match s.pmc.ctrl with
    | .busy (.write b q record) d => s.endOp .write b d fun m => m.storeRecord b q .written record
    | _ => s)

/-- What a commit leaves of its block (R137): the checksum and the commit mark, and VALID. -/
def Pmc.committed (b : BlockId) (m : Pmc) : Pmc :=
  m.modBlock b fun x => { x with commitMark := some (.sound (m.checksum b)), state := .valid }

/-- COMMIT_COMPLETION (R137). -/
def execCommitCompletion (s : State) : Host.Outcome State Fault Refusal :=
  .next (s.whenRunning fun s =>
    match s.pmc.ctrl with
    | .busy (.commit b) d => s.endOp .commit b d (Pmc.committed b)
    | _ => s)

end Sys2Proof.Machine
end

