-- ==== Sys2Proof/Machine/ChannelRequests.lean ====
section
/-!
DEFINITION. The requests that reach a channel: SET OVERRIDE (R54 to R56), SET NORMAL (R58, R59) and CLEAR FAULT (R76, R93).
-/

namespace Sys2Proof.Machine

/-- A setting asked of actuator `n`: its number, its kind and the setting's fit to it are checked, the speed is brought into
range, and `k` takes what is asked (R54, R55, R58). -/
def settingAsked (b : Body SettingArgs) (k : ActId → Asked → Owner) : Owner :=
  withFields b fun x => withId (actOfNumber x.actuator) fun a s =>
    match askedOf (s.site.works.plant.chans.look a) x.setting x.speed with
    | .ok q => k a q s
    | .error e => (s, .error e)

/-- SET OVERRIDE (R54 to R56): the MANUAL entry of the list. -/
def execSetOverride (p : Port) (b : Body SettingArgs) (s : State) : Host.Outcome State Fault Refusal :=
  .next (s.serve Sys2Proof.Machine.Port.isFf
    (settingAsked b fun a q s => accept (s.onPlant fun x => x.ask s.site.ic.fireOrder a .manual .ff q)) p)

/-- SET NORMAL (R58, R59): the NORMAL entry of the list, refused FIRE_MODE during an incident. -/
def execSetNormal (p : Port) (b : Body SettingArgs) (s : State) : Host.Outcome State Fault Refusal :=
  .next (s.serve Sys2Proof.Machine.Port.isBl
    (settingAsked b fun a q => require (fun s => !s.incident) .fireMode
      fun s => accept (s.onPlant fun x => x.ask s.site.ic.fireOrder a .normal .bl q)) p)

/-- CLEAR FAULT's owner (R76, R93). -/
def clearFaultOwner (b : Body Nat) : Owner :=
  withFields b fun n => withId (actOfNumber n) fun a s =>
    match s.site.works.plant.chans.look a with
    | .unassigned => (s, .error .badArgument)
    | .damper _ => accept (s.onPlant fun x => x.clearDamper a)
    | .fan _ => accept (s.onPlant fun x => x.clearFan a)

/-- CLEAR FAULT (R76, R93). -/
def execClearFault (p : Port) (b : Body Nat) (s : State) : Host.Outcome State Fault Refusal :=
  .next (s.serve Sys2Proof.Machine.Port.isFf (clearFaultOwner b) p)

end Sys2Proof.Machine
end

