-- ==== Sys2Proof/Machine/IncidentRequests.lean ====
section
/-!
DEFINITION. The requests of the Incident Controller: ALARM (R8, R9), RESTORE (R10) and SET ZONE MODE (R12 to R15).
-/

namespace Sys2Proof.Machine

/-- The checks of ALARM and RESTORE on port `p` (R8, R10): the zone number, the zone present, the line permitted. -/
def reported (p : Port) (b : Body Nat) (act : Line → ZoneId → Owner) : Owner :=
  withFields b fun n => withId (zoneOfNumber n) fun z =>
    require (fun s => (s.site.ic.config z).present) .zoneAbsent <|
    match p with
    | .alarm l => require (fun s => (s.site.ic.config z).permitted.has l) .zoneNotPermitted (act l z)
    | _ => refuse .notPermittedOnPort

/-- ALARM (R8, R9). -/
def execAlarm (p : Port) (b : Body Nat) (s : State) : Host.Outcome State Fault Refusal :=
  .next (s.serve Sys2Proof.Machine.Port.isAlarm
    (reported p b fun l z s => accept (s.onSite fun m x => x.alarm m l z)) p)

/-- RESTORE (R10). -/
def execRestore (p : Port) (b : Body Nat) (s : State) : Host.Outcome State Fault Refusal :=
  .next (s.serve Sys2Proof.Machine.Port.isAlarm
    (reported p b fun l z s => accept (s.onSite fun m x => x.restore m l z)) p)

/-- SET ZONE MODE's owner (R12). -/
def setZoneModeOwner (b : Body ZoneModeArgs) : Owner :=
  withFields b fun x => withId (zoneOfNumber x.zone) fun z =>
    require (fun s => (s.site.ic.config z).present) .zoneAbsent <|
    fun s => accept (s.onSite fun m y => y.setMode m z x.mode)

/-- SET ZONE MODE (R12 to R15). -/
def execSetZoneMode (p : Port) (b : Body ZoneModeArgs) (s : State) : Host.Outcome State Fault Refusal :=
  .next (s.serve Sys2Proof.Machine.Port.isFf (setZoneModeOwner b) p)

end Sys2Proof.Machine
end

