-- ==== Sys2Proof/Machine/Configuration.lean ====
section
/-!
DEFINITION. The loading of configuration block 63 (R166 to R169) from the records of R173: the fields each block takes, and
the record positions that CONFIG_DEFAULTED names.
-/

namespace Sys2Proof.Machine

/-- Block 63, the configuration block (R127). -/
def configBlock : BlockId := 63

/-- The accept code (R166). -/
def acceptCode : Byte := 0xA5#8

/-- A configuration record that is accepted (R166): its position is WRITTEN and it carries the accept code. -/
def Pmc.accepted (m : Pmc) (q : PosId) : Option (List Byte) :=
  if m.cond configBlock q = .written then
    let r := m.recordBytes configBlock q
    if byteAt r 0 = acceptCode then some r else none
  else none

/-- Block 63 stands VALID, so that its records are judged one at a time (R166). -/
def Pmc.configured (m : Pmc) : Bool := (m.block configBlock).state == .valid

/-- The record at a position, where block 63 is VALID and the record accepted. -/
def Pmc.config (m : Pmc) (q : PosId) : Option (List Byte) := if m.configured then m.accepted q else none

/-- A listed zone or channel number read into a set: the member added at the end unless it stands there already. -/
def addMember {α : Type} [DecidableEq α] (l : List α) (x : α) : List α := if x ∈ l then l else l ++ [x]

/-- The members of a list without the repeated ones. -/
def memberSet {α : Type} [DecidableEq α] (l : List α) : List α := l.foldl addMember []

/-! ### Ports and timing (R167) -/

/-- The window of port number `i` (AL1 to AL4, FF, BL as 0 to 5) in s (R152, R167). -/
def Pmc.windowOf (m : Pmc) (i : Fin 6) : Nat :=
  match m.config 0 with
  | some r => clampTo 2 60 (byteAt r (1 + i.val)).toNat
  | none => if i = 5 then 30 else 10

/-- BL supervision (R167): disabled only by the value 1. -/
def Pmc.blSupervised (m : Pmc) : Bool :=
  match m.config 0 with
  | some r => byteAt r 7 != 0x01#8
  | none => true

/-- The stagger interval in s (R167). -/
def Pmc.staggerInterval (m : Pmc) : Nat :=
  match m.config 0 with
  | some r => clampTo 0 30 (byteAt r 8).toNat
  | none => 5

/-- The ports' records at the end of the start-up operation (R144, R165 step 5). -/
def Pmc.portRecords (m : Pmc) : Table PortRec 6 :=
  Table.of fun i => PortRec.fresh (m.windowOf i) (if i = 5 then m.blSupervised else true)

/-! ### Actuator records (R168) -/

/-- The configured fields of a channel, by its kind. -/
inductive ChanCfg where
  | unassigned
  | damper (d : DamperCfg)
  | fan (f : FanCfg)
deriving DecidableEq, Repr

def ChanCfg.isFan : ChanCfg → Bool
  | .fan _ => true
  | _ => false

/-- A configured group: none for any value but 1 to 4 (R168). -/
def groupOfByte (b : Byte) : Option GroupId := groupOfNumber b.toNat

def roleOfByte (b : Byte) : Role := if b = 0x01#8 then .inlet else .path

/-- A fail or rest position: CLOSED for a value that is no position of a damper (R168). -/
def damperPosOfByte (b : Byte) : DamperPos := if b = 0x00#8 then .opened else .closed

/-- The members of a path list as written: a count, at most 4, and the actuator bytes (R173).
Log entry 23: DESIGN CHOICE, unsafe. -/
def pathAt (r : List Byte) (o : Nat) : List ActId :=
  memberSet ((List.range (min 4 (byteAt r o).toNat)).filterMap fun i => actOfNumber (byteAt r (o + 1 + i)).toNat)

/-- The channel entry at offset `o` of an actuator record (R168, R173), each number brought into its range (R166). The group of a
PATH damper is loaded as written, as an INLET damper's is. Log entry 39: DESIGN CHOICE, unsafe. -/
def chanEntry (r : List Byte) (o : Nat) : ChanCfg :=
  match (byteAt r o).toNat with
  | 0 => .damper
    { role := roleOfByte (byteAt r (o + 1))
      group := groupOfByte (byteAt r (o + 2))
      fail := damperPosOfByte (byteAt r (o + 3))
      rest := damperPosOfByte (byteAt r (o + 4))
      travelLimit := clampTo 5 180 (numberAt r (o + 5))
      freeArea := clampTo 0 4000 (numberAt r (o + 7)) }
  | 1 => .fan
    { group := groupOfByte (byteAt r (o + 1))
      rated := clampTo 500 60000 (numberAt r (o + 2))
      minSpeed := clampTo 100 800 (numberAt r (o + 4))
      slewRate := clampTo 10 500 (numberAt r (o + 6))
      proofTime := clampTo 5 120 (byteAt r (o + 8)).toNat
      runDown := clampTo 5 300 (numberAt r (o + 9))
      path := pathAt r (o + 11) }
  | _ => .unassigned

/-- The position that holds the record of channel `a` (R168). -/
def actPosition (a : ActId) : PosId := ⟨1 + a.val / 4, by omega⟩

/-- A channel as its record gives it; UNASSIGNED where the record is declined (R168). -/
def Pmc.writtenChan (m : Pmc) (a : ActId) : ChanCfg :=
  match m.config (actPosition a) with
  | some r => chanEntry r (1 + 31 * (a.val % 4))
  | none => .unassigned

/-- A channel of kind FAN after the first sixteen (R168). -/
def lateFan (written : Table ChanCfg 64) (a : ActId) : Bool :=
  (written.look a).isFan &&
    decide (Config.fanLimit ≤ ((allActs.take a.val).filter fun b => (written.look b).isFan).length)

/-- The channel is a damper of role PATH at this start-up. -/
def ChanCfg.isPath : ChanCfg → Bool
  | .damper d => d.role == .path
  | _ => false

/-- The channels as settled (R168): late fans UNASSIGNED, then each path list cut back to PATH dampers. -/
def settledChans (written : Table ChanCfg 64) : Table ChanCfg 64 :=
  let kept : Table ChanCfg 64 := Table.of fun a => if lateFan written a then .unassigned else written.look a
  Table.of fun a =>
    match kept.look a with
    | .fan f => .fan { f with path := f.path.filter fun b => (kept.look b).isPath }
    | c => c

/-! ### Groups and zones (R169) -/

/-- A velocity limit brought into range (R102): 0 stays 0. -/
def velocityIn (v : Nat) : Nat := if v = 0 then 0 else clampTo 50 500 v

/-- The configured fields of group `g` (R102, R169). -/
def Pmc.groupCfg (m : Pmc) (g : GroupId) : GroupCfg :=
  match m.config 17 with
  | some r => ⟨velocityIn (numberAt r (1 + 4 * g.val)), clampTo 0 10000 (numberAt r (3 + 4 * g.val))⟩
  | none => GroupCfg.default

/-- A set of alarm lines from its byte (R171); the upper bits are not read. Log entry 22: DESIGN CHOICE, unsafe. -/
def lineSetOf (b : Byte) : LineSet := ⟨b.getLsbD 0, b.getLsbD 1, b.getLsbD 2, b.getLsbD 3⟩

/-- A field of the values yes and no (R1), in that order (R171); no for any other value. Log entry 21: DEDUCED, unsafe. -/
def yesByte (b : Byte) : Bool := b == 0x00#8

/-- A zone's plan block: none outside 0 to 62 (R169). -/
def planBlockOf (b : Byte) : Option BlockId := if b.toNat ≤ 62 then blockOfNumber b.toNat else none

/-- The position that holds the record of zone `z` (R169). -/
def zonePosition (z : ZoneId) : PosId := ⟨18 + z.val / 4, by omega⟩

/-- The zone entry at offset `o` of a zone record (R169, R173). Log entry 23: DESIGN CHOICE, unsafe. -/
def zoneEntry (r : List Byte) (o : Nat) : ZoneCfg :=
  { present := yesByte (byteAt r o)
    planBlock := planBlockOf (byteAt r (o + 1))
    permitted := lineSetOf (byteAt r (o + 2))
    compatible := memberSet ((List.range (min 8 (byteAt r (o + 6)).toNat)).filterMap
      fun i => zoneOfNumber (byteAt r (o + 7 + i)).toNat)
    purgeTime := clampTo 0 3600 (numberAt r (o + 3))
    testPermitted := yesByte (byteAt r (o + 5)) }

/-- The members that the overflow record adds to the set of zone `z` (R169). Log entry 23: DESIGN CHOICE, unsafe. -/
def Pmc.overflowOf (m : Pmc) (z : ZoneId) : List ZoneId :=
  match m.config 30 with
  | some r => (List.range (min 40 (byteAt r 1).toNat)).filterMap fun i =>
    if zoneOfNumber (byteAt r (2 + 2 * i)).toNat = some z then zoneOfNumber (byteAt r (3 + 2 * i)).toNat else none
  | none => []

/-- The configured fields of zone `z` (R1, R169). -/
def Pmc.zoneCfg (m : Pmc) (z : ZoneId) : ZoneCfg :=
  match m.config (zonePosition z) with
  | some r =>
    let e := zoneEntry r (1 + 31 * (z.val % 4))
    { e with compatible := memberSet (e.compatible ++ m.overflowOf z) }
  | none => ZoneCfg.default

/-! ### CONFIG_DEFAULTED (R166, R168) -/

/-- CONFIG_DEFAULTED names record position `q` of a VALID block 63: the record is declined, or a channel of it is a fan after
the sixteenth. An UNWRITTEN position 30 is an empty overflow record; position 31 is not read. -/
def Pmc.defaulted (m : Pmc) (written : Table ChanCfg 64) (q : PosId) : Bool :=
  if q.val = 31 then false
  else if q.val = 30 ∧ m.cond configBlock q = .unwritten then false
  else (m.accepted q).isNone || allActs.any fun a => actPosition a == q && lateFan written a

/-- The details of the CONFIG_DEFAULTED reports of this start-up, in order (R166): one without detail where block 63 is not
VALID, otherwise one for each record position defaulted. -/
def Pmc.configReports (m : Pmc) (written : Table ChanCfg 64) : List (Option Detail) :=
  if m.configured then
    (allPositions.filter (m.defaulted written)).map fun q => some (.recordPosition q.val)
  else [none]

end Sys2Proof.Machine
end

