-- ==== Sys2Proof/Machine/StartUp.lean ====
section
/-!
DEFINITION. Resets and the start-up operation (R164, R165): its beginning, and its steps 2 to 6, in which plan memory is
classified (R143), the configuration loaded (R166), and every block takes its reset values.
-/

namespace Sys2Proof.Machine

/-! ### The beginning (R164, R165 step 1) -/

/-- The outputs of a channel off: drive and run output de-energized, speed reference 0 (R165 step 1). -/
def Channel.off : Channel → Channel
  | .unassigned => .unassigned
  | .damper d => .damper { d with drive := false }
  | .fan f => .fan { f with run := false, present := 0, duty := 0 }

/-- A channel's inputs begin released or absent (R165 step 1). -/
def ChanInputs.restart (i : ChanInputs) : ChanInputs := ⟨i.first.restart, i.second.restart⟩

/-- The kind of start-up is a warm restart (R164). -/
def StartKind.isWarm : StartKind → Bool
  | .powerOn => false
  | .resetInput | .restartRequest => true

/-- The channel side when a reset of the kind is taken. -/
def Plant.beginStartUp (kind : StartKind) (x : Plant) : Plant :=
  { x with
    now := 0
    chans := x.chans.map Channel.off
    inputs := x.inputs.map ChanInputs.restart
    stats := if kind.isWarm then x.stats else Table.all 64 Stats.cleared
    ffReports := ⟨[], 0⟩
    blReports := ⟨[], 0⟩ }

/-- A test record across a warm restart (R117): one left open is closed ABORTED with cause RESET. -/
def TestRecord.acrossReset (r : TestRecord) : TestRecord :=
  if r.outcome = .none ∧ r.start.isSome then { r with outcome := .aborted, cause := some .reset, steps := [] } else r

/-- The Test Sequencer when a reset of the kind is taken (R117). -/
def TestSeq.beginStartUp (kind : StartKind) (t : TestSeq) : TestSeq :=
  ⟨none, if kind.isWarm then t.records.map TestRecord.acrossReset else Table.all 48 TestRecord.neverTested⟩

/-- A lock state across a reset of the kind (R143). -/
def LockState.acrossReset (kind : StartKind) (l : LockState) : LockState :=
  if kind.isWarm ∧ l = .lockedDown then .lockedDown else .locked

/-- The Plan Memory Controller when a reset of the kind is taken: an operation is cut off (R143), the locks are set by the
kind, and the commissioning input begins off. -/
def Pmc.beginStartUp (kind : StartKind) (draw : Nat) (m : Pmc) : Pmc :=
  let m := m.cutOff draw
  { m with
    blocks := m.blocks.map fun x => { x with lock := x.lock.acrossReset kind }
    commissioning := m.commissioning.restart }

/-- The reset input as a start-up operation begins (R165 step 1): asserted when the reset input began it. -/
def StartKind.resetLine (kind : StartKind) (i : Input) : Input :=
  match kind with
  | .resetInput => Input.settle true
  | .powerOn | .restartRequest => i.restart

/-- A reset is taken (R164): the start-up operation begins at its first step, and is held there while the reset input that
began it stays asserted. Log entry 16: DESIGN CHOICE, unsafe. -/
def State.beginStartUp (kind : StartKind) (s : State) : State :=
  { s with
    mode := .startUp kind (kind == .resetInput) 0
    site := { s.site with works := { s.site.works with
      plant := s.site.works.plant.beginStartUp kind
      ts := s.site.works.ts.beginStartUp kind } }
    pmc := s.pmc.beginStartUp kind s.free
    ports := s.ports.map fun r => { r with rx := .hunting }
    resetInput := kind.resetLine s.resetInput
    restartDue := false
    free := if s.pmc.ctrl.operating then s.free + 1 else s.free }

/-! ### Classification (R165 step 2) -/

/-- Every block classified from its contents and every flag clear (R143). -/
def Pmc.reclassify (m : Pmc) : Pmc :=
  { m with
    flags := StatusFlags.clear
    ctrl := .ready
    blocks := Table.of fun b => { m.block b with state := m.classify b } }

/-- The blocks classified CORRUPT, in ascending number. -/
def Pmc.corruptBlocks (m : Pmc) : List BlockId := allBlocks.filter fun b => (m.block b).state == .corrupt

/-! ### The derivation (R165 step 4) -/

/-- A damper as derived (R81): its rest position as target, the drive by R65, the state by its switches; a travel timer
starts when the Timebase does, at 0. -/
def DamperCfg.derive (c : DamperCfg) (sw : SwitchCond) : Damper :=
  let d : Damper :=
    { cfg := c, state := c.rest.atState, target := c.rest, drive := c.driveFor c.rest, timer := none, cause := none
      captureStart := none }
  if sw = .contradictory then d.inSwitchFault
  else if sw = c.rest.endCond then d
  else d.travelling 0 .start

/-- A fan as derived (R82): STOPPED, or STOPPING with cause START where proof is present. -/
def FanCfg.derive (c : FanCfg) (proof : Bool) : Fan :=
  { cfg := c, state := if proof then .stopping else .stopped, target := .off, cls := .rest, applied := 0, present := 0
    duty := 0, run := false, proofTimer := none
    runDownTimer := if proof then some (c.runDown * 1000) else none
    faultCause := none, stopCause := if proof then some .start else none, requeue := false }

/-- A channel as derived from its configuration and its debounced inputs (R81, R82). -/
def ChanCfg.derive (c : ChanCfg) (i : ChanInputs) : Channel :=
  match c with
  | .unassigned => .unassigned
  | .damper d => .damper (d.derive (switchCond i.first.debounced i.second.debounced))
  | .fan f => .fan (f.derive i.first.debounced)

/-- The channel side after the derivation: lists, queue and histories empty (R63, R82), figures afresh (R103). -/
def Plant.derived (m : Pmc) (chans : Table ChanCfg 64) (x : Plant) : Plant :=
  let y : Plant :=
    { now := 0
      chans := Table.of fun a => (chans.look a).derive (x.inputs.look a)
      inputs := x.inputs
      stats := x.stats
      demands := Table.all 64 []
      queue := []
      stagger := none
      staggerInterval := m.staggerInterval
      history := Table.all 4 []
      groups := Table.of m.groupCfg
      figs := Table.all 4 GroupFig.zero
      ffReports := x.ffReports
      blReports := x.blReports
      pxDue := []
      notes := [] }
  { y with figs := Table.of y.figures }

/-- The Incident Controller after the start-up operation (R23). -/
def Incident.afterStartUp (m : Pmc) : Incident :=
  ⟨Table.of m.zoneCfg, Table.all 48 Zone.atRest, [], [], 0⟩

/-! ### The operation (R165 steps 2 to 6) -/

/-- The start-up operation of a kind runs to its end. -/
def State.completeStartUp (kind : StartKind) (s : State) : State :=
  let m := s.pmc.reclassify
  let written : Table ChanCfg 64 := Table.of m.writtenChan
  let x := s.site.works.plant
  let x := m.corruptBlocks.foldl
    (fun x b => x.report .blockCorrupt (some (.block b)) (some (.blockState .corrupt)) none) x
  let x := (m.configReports written).foldl (fun x d => x.report .configDefaulted (some (.block configBlock)) none d) x
  let x := (x.derived m (settledChans written)).report .controllerStarted none none (some (.startKind kind))
  { s with
    mode := .running
    site := ⟨⟨x, Table.all 48 none, ⟨none, s.site.works.ts.records⟩⟩, Incident.afterStartUp m⟩
    pmc := m
    ports := m.portRecords
    restartDue := false }

end Sys2Proof.Machine
end

