-- ==== Sys2Proof/Machine/LinkEvents.lean ====
section
/-!
DEFINITION. The events of the ports (R144 to R148, R152, R153): a CRC failure, an expired gap, the end of a reply, and the expiry
of a supervision window. No port takes an event during the start-up operation (R144).
-/

namespace Sys2Proof.Machine

/-- A frame whose CRC does not match is abandoned, and the error count rises to 255 (R147). -/
def PortRec.crcFailure (r : PortRec) : PortRec := { r with rx := .hunting, errors := min 255 (r.errors + 1) }

/-- CRC_FAILURE on port `p` (R147); bytes are ignored while a reply is being sent (R148). Log entry 31: DEDUCED, safe. -/
def execCrcFailure (p : Port) (s : State) : Host.Outcome State Fault Refusal :=
  .next (if s.taking p then s.modPort p PortRec.crcFailure else s)

/-- The Timebase stands at least at `d`. -/
def State.reach (s : State) (d : Nat) : State := s.onWorksOnly fun w => w.onPlant fun x => x.reach d

/-- The longest gap between two bytes of a frame, in ms (R147). -/
def gapLimit : Nat := 5

/-- The gap of port `p` expires: a frame in progress is abandoned (R147). -/
def State.gapExpiry (p : Port) (s : State) : State :=
  match (s.port p).rx with
  | .inFrame _ since => (s.reach (since + gapLimit)).modPort p fun r => { r with rx := .hunting }
  | _ => s

/-- GAP_EXPIRY on port `p` (R147). -/
def execGapExpiry (p : Port) (s : State) : Host.Outcome State Fault Refusal :=
  .next (s.whenRunning (State.gapExpiry p))

/-- The last byte of the reply of port `p` has been sent (R148): HUNTING; after the reply to an accepted RESTART CONTROLLER
the warm restart begins (R155). -/
def State.replySent (p : Port) (s : State) : State :=
  match (s.port p).rx with
  | .replying _ =>
    let t := s.modPort p fun r => { r with rx := .hunting }
    if p = .bl ∧ s.restartDue then t.beginStartUp .restartRequest else t
  | _ => s

/-- REPLY_SENT on port `p` (R148, R155). Log entry 32: DESIGN CHOICE, safe. -/
def execReplySent (p : Port) (s : State) : Host.Outcome State Fault Refusal :=
  .next (s.whenRunning (State.replySent p))

/-- What the silence of a port brings about (R153). -/
def State.silenced (p : Port) (s : State) : State :=
  match p with
  | .alarm _ | .ff => s
  | .bl => (s.onWorks Works.withdrawNormals).onSite fun m x => x.abortTest m .blSilent

/-- The supervision window of port `p` expires (R152): SILENT, the window stopped, LINK_SILENT, the effects of R153. -/
def State.windowExpiry (p : Port) (s : State) : State :=
  let r := s.port p
  match r.link, r.window with
  | .online, some d =>
    let t := (s.reach d).modPort p fun r => { r with link := .silent, window := none }
    (t.report .linkSilent (some (.port p)) (some (.link .silent)) (some (.window r.windowLen))).silenced p
  | _, _ => s

/-- SUPERVISION_WINDOW_EXPIRY on port `p` (R152, R153). -/
def execSupervisionWindowExpiry (p : Port) (s : State) : Host.Outcome State Fault Refusal :=
  .next (s.whenRunning (State.windowExpiry p))

end Sys2Proof.Machine
end

