-- ==== Sys2Proof/Machine/LinkRequests.lean ====
section
/-!
DEFINITION. The requests that the ports themselves own: POLL (R151), ACK RESTART (R154), RESTART CONTROLLER (R155), and a
code that is no request of the 6408 (R148 step 3).
-/

namespace Sys2Proof.Machine

/-- The fields of an accepted POLL reply (R151, R175): the link error count, and on an alarm line the fire order and the
locked-out list. -/
def State.pollFields (s : State) (p : Port) : List Byte :=
  byteOf (s.port p).errors
    :: (match p with
      | .alarm _ => zoneList s.site.ic.fireOrder ++ zoneList s.site.ic.lockedOut
      | _ => [])

/-- POLL's owner (R151): the count is reported, and cleared. -/
def pollOwner (p : Port) (b : Body Unit) : Owner :=
  withFields b fun _ s => (s.modPort p fun r => { r with errors := 0 }, .ok (s.pollFields p))

/-- POLL (R151). -/
def execPoll (p : Port) (b : Body Unit) (s : State) : Host.Outcome State Fault Refusal :=
  .next (s.serve Sys2Proof.Machine.Port.every (pollOwner p b) p)

/-- ACK RESTART's owner (R154): the port's own restart-pending flag is cleared. -/
def ackRestartOwner (p : Port) (b : Body Unit) : Owner :=
  withFields b fun _ s => accept (s.modPort p fun r => { r with restart := false })

/-- ACK RESTART (R154). -/
def execAckRestart (p : Port) (b : Body Unit) (s : State) : Host.Outcome State Fault Refusal :=
  .next (s.serve Sys2Proof.Machine.Port.every (ackRestartOwner p b) p)

/-- RESTART CONTROLLER's owner (R155): the restart waits for the end of the reply. -/
def restartOwner (b : Body Unit) : Owner :=
  withFields b fun _ =>
    require (fun s => !s.incident) .fireMode <|
    require (fun s => !s.testRunning) .testRunning <|
    require (fun s => !s.pmc.ctrl.operating) .planMemoryBusy <|
    fun s => accept { s with restartDue := true }

/-- RESTART CONTROLLER (R155). -/
def execRestartController (p : Port) (b : Body Unit) (s : State) : Host.Outcome State Fault Refusal :=
  .next (s.serve Sys2Proof.Machine.Port.isBl (restartOwner b) p)

/-- A valid frame whose code is no request code of the 6408 is refused BAD_ARGUMENT and reaches no owner (R148 step 3). -/
def execUnknownRequestCode (p : Port) (_code : Byte) (s : State) : Host.Outcome State Fault Refusal :=
  .next (s.serve Sys2Proof.Machine.Port.every (refuse .badArgument) p)

end Sys2Proof.Machine
end

