-- ==== Sys2Proof/Machine/PlanReads.lean ====
section
/-!
DEFINITION. The plan-memory reads (R142, R173, R175): READ RECORD, READ BLOCK STATES, PLAN STATUS, CLEAR PLAN STATUS and
QUERY GEOMETRY. None of them breaks an erase setup (R132).
-/

namespace Sys2Proof.Machine

/-- READ RECORD's owner (R142, R173): a number out of range is refused before a block under an operation.
Log entry 36: DESIGN CHOICE, unsafe. -/
def readRecordOwner (b : Body PositionArgs) : Owner :=
  withFields b fun x => withId (blockOfNumber x.block) fun b => withId (posOfNumber x.position) fun q =>
    require (fun s => s.pmc.ctrl.target != some b) .planMemoryBusy
      fun s => (s, .ok ((s.pmc.cond b q).code :: s.pmc.recordBytes b q))

/-- READ RECORD (R142, R173). -/
def execReadRecord (p : Port) (b : Body PositionArgs) (s : State) : Host.Outcome State Fault Refusal :=
  .next (s.serve Sys2Proof.Machine.Port.isBl (readRecordOwner b) p)

/-- The fields of READ BLOCK STATES (R175): block state and lock state of each block. -/
def Pmc.stateBytes (m : Pmc) : List Byte := allBlocks.flatMap fun b => [(m.block b).state.code, (m.block b).lock.code]

/-- READ BLOCK STATES (R142, R175). -/
def execReadBlockStates (p : Port) (b : Body Unit) (s : State) : Host.Outcome State Fault Refusal :=
  .next (s.serve Sys2Proof.Machine.Port.isBl (withFields b fun _ s => (s, .ok s.pmc.stateBytes)) p)

/-- The operation a controller state carries. -/
def Ctrl.op : Ctrl → Option ArrayOp
  | .busy op _ => some op
  | .suspended op _ => some op
  | _ => none

/-- The block a controller state carries (R130). -/
def Ctrl.block : Ctrl → Option BlockId
  | .eraseSetup b => some b
  | c => c.target

/-- The remaining time in ms, in BUSY and SUSPENDED (R130). -/
def Ctrl.remaining (now : Nat) : Ctrl → Option Nat
  | .busy _ d => some (d - now)
  | .suspended _ left => some left
  | _ => none

/-- The six flags, bit 0 SEQUENCE to bit 5 PERMISSION (R175). -/
def StatusFlags.code (f : StatusFlags) : Byte :=
  presence [f.sequence, f.lock, f.write, f.erase, f.planInvalid, f.permission]

/-- The fields of PLAN STATUS (R175). -/
def Pmc.statusBytes (m : Pmc) (now : Nat) : List Byte :=
  let op := m.ctrl.op
  let block := m.ctrl.block
  let left := m.ctrl.remaining now
  [m.ctrl.code, presence [op.isSome, block.isSome, left.isSome], orZero (op.map fun o => o.kind.code),
    orZero (block.map blockByte)]
    ++ orZero4 left ++ [m.flags.code, flagByte m.commissioning.debounced]

/-- PLAN STATUS (R142, R175). -/
def execPlanStatus (p : Port) (b : Body Unit) (s : State) : Host.Outcome State Fault Refusal :=
  .next (s.serve Sys2Proof.Machine.Port.isBl (withFields b fun _ s => (s, .ok (s.pmc.statusBytes s.now))) p)

/-- CLEAR PLAN STATUS (R131, R142): all six flags cleared, and nothing else. -/
def execClearPlanStatus (p : Port) (b : Body Unit) (s : State) : Host.Outcome State Fault Refusal :=
  .next (s.serve Sys2Proof.Machine.Port.isBl
    (withFields b fun _ s => accept { s with pmc := { s.pmc with flags := StatusFlags.clear } }) p)

/-- The geometry (R142, R175): blocks, positions per block, steps per plan, entries per step, fallback and configuration
block. -/
def geometryBytes : List Byte := [64#8, 32#8, 8#8, 24#8, 0#8, 63#8]

/-- QUERY GEOMETRY (R142, R175). -/
def execQueryGeometry (p : Port) (b : Body Unit) (s : State) : Host.Outcome State Fault Refusal :=
  .next (s.serve Sys2Proof.Machine.Port.isBl (withFields b fun _ s => (s, .ok geometryBytes)) p)

end Sys2Proof.Machine
end

