-- ==== Sys2Proof/Machine/PlanRequests.lean ====
section
/-!
DEFINITION. The plan-memory requests that act (R132 to R140): ERASE SETUP, ERASE CONFIRM, WRITE RECORD, COMMIT, SUSPEND,
RESUME, LOCK, LOCK DOWN and UNLOCK.
-/

namespace Sys2Proof.Machine

/-! ### The checks of R132 -/

/-- The Plan Memory Controller changed. -/
def State.onPmc (s : State) (g : Pmc → Pmc) : State := { s with pmc := g s.pmc }

/-- The controller in another state. -/
def Pmc.setCtrl (m : Pmc) (c : Ctrl) : Pmc := { m with ctrl := c }

/-- The owner refuses with `e` and sets the flag `x`. -/
def flagged (x : Flag) (e : Reason) : Owner := fun s => (s.onPmc fun m => m.raise x, .error e)

/-- Check 2 (R132): a pending setup is broken by every acting request but the ERASE CONFIRM of its own block, which
`confirms` names. -/
def unbroken (confirms : Option BlockId) (k : Owner) : Owner := fun s =>
  match s.pmc.ctrl with
  | .eraseSetup b =>
    if confirms = some b then k s else flagged .sequence .sequence (s.onPmc fun m => m.setCtrl .ready)
  | _ => k s

/-- Check 3 (R132): no operation in progress or suspended. -/
def whenIdle (k : Owner) : Owner := require (fun s => !s.pmc.ctrl.operating) .planMemoryBusy k

/-- Check 4 (R132): no status flag set. -/
def whenCleared (k : Owner) : Owner := require (fun s => !s.pmc.flags.any) .statusUncleared k

/-- Check 5 (R132): the commissioning input on. -/
def whenCommissioning (k : Owner) : Owner := require (fun s => s.pmc.commissioning.debounced) .noCommissioning k

/-- Check 6 (R132): the fire order empty. -/
def whenNoFire (k : Owner) : Owner := require (fun s => !s.incident) .fireMode k

/-- The block of a request that names one (check 1 of R132). -/
def withBlock (b : Body Nat) (k : BlockId → Owner) : Owner :=
  withFields b fun n => withId (blockOfNumber n) k

/-- An operation begins (R130): the array fixes its duration, a free value in its range, and the controller is BUSY. -/
def State.startOp (s : State) (op : ArrayOp) : State :=
  { s.onPmc (fun m => m.setCtrl (.busy op (s.now + op.duration s.free))) with free := s.free + 1 }

/-! ### Erase (R133, R134) -/

/-- ERASE SETUP's owner (R133). -/
def eraseSetupOwner (b : Body Nat) : Owner :=
  withBlock b fun b => unbroken none <| whenIdle <| whenCleared <| whenCommissioning <|
    fun s => accept (s.onPmc fun m => m.setCtrl (.eraseSetup b))

/-- ERASE SETUP (R133). -/
def execEraseSetup (p : Port) (b : Body Nat) (s : State) : Host.Outcome State Fault Refusal :=
  .next (s.serve Sys2Proof.Machine.Port.isBl (eraseSetupOwner b) p)

/-- The erase of block `b` begins (R134): erase mark set, ERASING, BUSY. -/
def State.beginErase (s : State) (b : BlockId) : State :=
  (s.onPmc fun m => m.modBlock b fun x => { x with eraseMark := true, state := .erasing }).startOp (.erase b)

/-- ERASE CONFIRM's owner (R134). The controller leaves ERASE_SETUP for READY unless the erase begins.
Log entry 33: DEDUCED, unsafe. -/
def eraseConfirmOwner (b : Body Nat) : Owner :=
  withBlock b fun b => unbroken (some b) fun s =>
    let pending := s.pmc.ctrl == .eraseSetup b
    let confirm : Owner := whenIdle <| whenCleared <| whenCommissioning fun s =>
      if !pending then flagged .sequence .sequence s
      else if s.incident || s.testRunning then flagged .permission .permission s
      else if (s.pmc.block b).lock != .unlocked then flagged .lock .lock s
      else accept (s.beginErase b)
    confirm (if pending then s.onPmc fun m => m.setCtrl .ready else s)

/-- ERASE CONFIRM (R134). -/
def execEraseConfirm (p : Port) (b : Body Nat) (s : State) : Host.Outcome State Fault Refusal :=
  .next (s.serve Sys2Proof.Machine.Port.isBl (eraseConfirmOwner b) p)

/-! ### Write and commit (R136, R137) -/

/-- The block takes a write at the position (R136). -/
def Pmc.writable (m : Pmc) (b : BlockId) (q : PosId) : Bool :=
  (m.block b).lock == .unlocked && ((m.block b).state == .blank || (m.block b).state == .opened) && m.cond b q == .unwritten

/-- The write of a record begins (R136): a BLANK block becomes OPEN. -/
def State.beginWrite (s : State) (b : BlockId) (q : PosId) (record : List Byte) : State :=
  (s.onPmc fun m => m.modBlock b fun x => { x with state := .opened }).startOp (.write b q record)

/-- WRITE RECORD's owner (R136). -/
def writeRecordOwner (b : Body WriteArgs) : Owner :=
  withFields b fun x => withId (blockOfNumber x.block) fun b => withId (posOfNumber x.position) fun q =>
    unbroken none <| whenIdle <| whenCleared <| whenCommissioning <| whenNoFire fun s =>
      if s.pmc.writable b q then accept (s.beginWrite b q x.record) else flagged .write .write s

/-- WRITE RECORD (R136). -/
def execWriteRecord (p : Port) (b : Body WriteArgs) (s : State) : Host.Outcome State Fault Refusal :=
  .next (s.serve Sys2Proof.Machine.Port.isBl (writeRecordOwner b) p)

/-- COMMIT's owner (R137). -/
def commitOwner (b : Body Nat) : Owner :=
  withBlock b fun b => unbroken none <| whenIdle <| whenCleared <| whenCommissioning <| whenNoFire fun s =>
    if (s.pmc.block b).lock != .unlocked then flagged .lock .lock s
    else if (s.pmc.block b).state != .opened then flagged .write .write s
    else if b != 63 && !s.pmc.planValid b then flagged .planInvalid .planInvalid s
    else accept (s.startOp (.commit b))

/-- COMMIT (R137). -/
def execCommit (p : Port) (b : Body Nat) (s : State) : Host.Outcome State Fault Refusal :=
  .next (s.serve Sys2Proof.Machine.Port.isBl (commitOwner b) p)

/-! ### Suspend and resume (R138, R139) -/

/-- SUSPEND's owner (R138). -/
def suspendOwner (b : Body Unit) : Owner :=
  withFields b fun _ => unbroken none fun s =>
    match s.pmc.ctrl with
    | .busy _ _ => accept (s.onPmc fun m => m.suspendOp s.now)
    | _ => (s, .error .nothingInProgress)

/-- SUSPEND (R138). -/
def execSuspend (p : Port) (b : Body Unit) (s : State) : Host.Outcome State Fault Refusal :=
  .next (s.serve Sys2Proof.Machine.Port.isBl (suspendOwner b) p)

/-- RESUME's owner (R139). -/
def resumeOwner (b : Body Unit) : Owner :=
  withFields b fun _ => unbroken none fun s =>
    match s.pmc.ctrl with
    | .suspended op left =>
      (whenNoFire <| whenCommissioning fun s =>
        if (s.pmc.block op.target).lock != .unlocked then flagged .lock .lock s
        else accept (s.onPmc fun m => m.setCtrl (.busy op (s.now + left)))) s
    | _ => (s, .error .nothingInProgress)

/-- RESUME (R139). -/
def execResume (p : Port) (b : Body Unit) (s : State) : Host.Outcome State Fault Refusal :=
  .next (s.serve Sys2Proof.Machine.Port.isBl (resumeOwner b) p)

/-! ### Locks (R140) -/

/-- The controller is in BUSY. -/
def Ctrl.isBusy : Ctrl → Bool
  | .busy _ _ => true
  | _ => false

/-- LOCK, LOCK DOWN and UNLOCK are refused in BUSY (R140). -/
def whenNotBusy (k : Owner) : Owner := require (fun s => !s.pmc.ctrl.isBusy) .planMemoryBusy k

/-- The lock state after LOCK (R140). -/
def LockState.locking : LockState → LockState
  | .unlocked => .locked
  | l => l

/-- The block's lock state becomes `l`. -/
def State.setLock (s : State) (b : BlockId) (l : LockState) : State :=
  s.onPmc fun m => m.modBlock b fun x => { x with lock := l }

/-- LOCK's owner (R140). -/
def lockOwner (b : Body Nat) : Owner :=
  withBlock b fun b => unbroken none <| whenNotBusy fun s => accept (s.setLock b (s.pmc.block b).lock.locking)

/-- LOCK (R140). -/
def execLock (p : Port) (b : Body Nat) (s : State) : Host.Outcome State Fault Refusal :=
  .next (s.serve Sys2Proof.Machine.Port.isBl (lockOwner b) p)

/-- LOCK DOWN's owner (R140). -/
def lockDownOwner (b : Body Nat) : Owner :=
  withBlock b fun b => unbroken none <| whenNotBusy fun s => accept (s.setLock b .lockedDown)

/-- LOCK DOWN (R140). -/
def execLockDown (p : Port) (b : Body Nat) (s : State) : Host.Outcome State Fault Refusal :=
  .next (s.serve Sys2Proof.Machine.Port.isBl (lockDownOwner b) p)

/-- UNLOCK's owner (R140): a block locked down stays so, and the LOCK flag is set. Log entry 17: DEDUCED, unsafe. -/
def unlockOwner (b : Body Nat) : Owner :=
  withBlock b fun b => unbroken none <| whenCommissioning <| whenNotBusy fun s =>
    if (s.pmc.block b).lock == .lockedDown then flagged .lock .lock s else accept (s.setLock b .unlocked)

/-- UNLOCK (R140). -/
def execUnlock (p : Port) (b : Body Nat) (s : State) : Host.Outcome State Fault Refusal :=
  .next (s.serve Sys2Proof.Machine.Port.isBl (unlockOwner b) p)

end Sys2Proof.Machine
end

