-- ==== Sys2Proof/Machine/StatusReads.lean ====
section
/-!
DEFINITION. READ REPORTS (R159, R174) and the six status reads (R161 to R163, R174, R175).
-/

namespace Sys2Proof.Machine

/-! ### READ REPORTS -/

/-- A report queue after up to `n` of its oldest reports have been read (R159): an empty queue has its loss count
cleared. -/
def ReportQueue.afterRead (q : ReportQueue) (n : Nat) : ReportQueue :=
  let rest := q.reports.drop n
  ⟨rest, if rest.isEmpty then 0 else q.loss⟩

/-- The report queue of the port FF or BL replaced. -/
def State.setQueue (s : State) (p : Port) (q : ReportQueue) : State :=
  s.onWorksOnly fun w => w.onPlant fun x =>
    match p with
    | .ff => { x with ffReports := q }
    | .bl => { x with blReports := q }
    | .alarm _ => x

/-- READ REPORTS' owner (R159). -/
def readReportsOwner (p : Port) (b : Body Nat) : Owner :=
  withFields b fun n s =>
    match s.queueOf p with
    | some q =>
      if 1 ≤ n ∧ n ≤ 8 then
        (s.setQueue p (q.afterRead n), .ok (listBytes ((q.reports.take n).map Report.bytes)))
      else (s, .error .badArgument)
    | none => (s, .error .notPermittedOnPort)

/-- READ REPORTS (R159, R174). -/
def execReadReports (p : Port) (b : Body Nat) (s : State) : Host.Outcome State Fault Refusal :=
  .next (s.serve Sys2Proof.Machine.Port.isStation (readReportsOwner p b) p)

/-! ### Reads by range -/

/-- The members of a list of identifiers, by number from 1, that a range read asks for, up to the last (R161); none where
the first number or the count lies outside 1 to `list.length`. -/
def askedRange {α : Type} (list : List α) (first count : Nat) : Option (List α) :=
  if 1 ≤ first ∧ first ≤ list.length ∧ 1 ≤ count ∧ count ≤ list.length then
    some ((list.drop (first - 1)).take count)
  else none

/-- The step outcome list of a zone; empty for a zone that is not executing. -/
def Works.outcomes (w : Works) (z : ZoneId) : List StepOutcome :=
  match w.ctx z with
  | some c => c.outcomes
  | none => []

/-- The entry of step `k` in a step outcome list. -/
def outcomeOf (l : List StepOutcome) (k : Nat) : Option StepOutcome := if k = 0 then none else l[k - 1]?

/-- The zone table read's owner (R162), in its range form and its step form. -/
def zoneTableOwner (b : Body ZoneReadArgs) : Owner :=
  withFields b fun x =>
    match x with
    | .range first count => withId (askedRange allZones first count) fun zs s =>
      (s, .ok (rangeBytes Config.zoneRecordsPerReply (zs.map (zoneRecord s.site))))
    | .step n k => withId (zoneOfNumber n) fun z s =>
      match outcomeOf (s.site.works.outcomes z) k with
      | some o => (s, .ok (stepBytes z k o))
      | none => (s, .error .badArgument)

/-- The zone table read (R162, R174, R175). -/
def execZoneTableRead (p : Port) (b : Body ZoneReadArgs) (s : State) : Host.Outcome State Fault Refusal :=
  .next (s.serve Sys2Proof.Machine.Port.isStation (zoneTableOwner b) p)

/-- The actuator table read's owner (R162). -/
def actuatorTableOwner (b : Body RangeArgs) : Owner :=
  withFields b fun x => withId (askedRange allActs x.first x.count) fun l s =>
    (s, .ok (rangeBytes Config.actuatorRecordsPerReply (l.map (actRecord s.site.works.plant))))

/-- The actuator table read (R162, R174, R175). -/
def execActuatorTableRead (p : Port) (b : Body RangeArgs) (s : State) : Host.Outcome State Fault Refusal :=
  .next (s.serve Sys2Proof.Machine.Port.isStation (actuatorTableOwner b) p)

/-! ### Group table and start queue -/

/-- An entry of the scaled set in the group table read (R175). -/
def Plant.scaledEntry (x : Plant) (a : ActId) : List Byte :=
  match x.fan? a with
  | some f => actByte a :: (bytes2 f.cfg.minSpeed ++ bytes2 f.demanded ++ bytes2 f.applied)
  | none => []

/-- An entry of the manual set in the group table read (R175). -/
def Plant.manualEntry (x : Plant) (a : ActId) : List Byte :=
  match x.fan? a with
  | some f => actByte a :: bytes2 f.demanded
  | none => []

/-- The fields of the group table read (R115, R163, R175); C and A in L/s, rounded down. -/
def Plant.groupBytes (x : Plant) (g : GroupId) : List Byte :=
  let c := x.groups.look g
  let f := x.figs.look g
  let has := c.checked
  [groupByte g, flagByte has] ++ bytes2 c.velocity ++ bytes2 c.margin ++ [presence [has, has]]
    ++ orZero4 (if has then some (f.capacity / 1000) else none)
    ++ orZero4 (if has then some (f.available / 1000) else none)
    ++ bytes4 f.area ++ listBytes (f.scaled.map x.scaledEntry) ++ listBytes (f.manual.map x.manualEntry)

/-- The group table read (R163, R175). -/
def execGroupTableRead (p : Port) (b : Body Nat) (s : State) : Host.Outcome State Fault Refusal :=
  .next (s.serve Sys2Proof.Machine.Port.isStation
    (withFields b fun n => withId (groupOfNumber n) fun g s => (s, .ok (s.site.works.plant.groupBytes g))) p)

/-- The fields of the start queue read (R163, R175); a join time is sent as the low 32 bits of the count. -/
def Plant.queueBytes (x : Plant) : List Byte :=
  presence [x.stagger.isSome] :: orZero4 (x.stagger.map fun d => d - x.now)
    ++ listBytes (x.queue.map fun e => actByte e.fan :: bytes4 e.joined ++ [e.cause.code])

/-- The start queue read (R163, R175). -/
def execStartQueueRead (p : Port) (b : Body Unit) (s : State) : Host.Outcome State Fault Refusal :=
  .next (s.serve Sys2Proof.Machine.Port.isStation (withFields b fun _ s => (s, .ok s.site.works.plant.queueBytes)) p)

/-! ### Test records and links -/

/-- The fields of the summary part (R175). -/
def TestRecord.summaryBytes (r : TestRecord) (z : ZoneId) : List Byte :=
  [zoneByte z, r.outcome.code, presence [r.cause.isSome, r.hold.isSome, r.start.isSome, r.stop.isSome],
    orZero (r.cause.map AbortCause.code)]
    ++ bytes2 (r.hold.getD 0) ++ orZero4 r.start ++ orZero4 r.stop ++ outcomeBytes r.steps ++ [byteOf r.findings.length]

/-- The fields of a part of a test record (R163, R175); BAD_ARGUMENT for a step without an entry.
Log entry 18: DESIGN CHOICE, unsafe. -/
def TestRecord.part (r : TestRecord) (z : ZoneId) (part : TestPart) (index : Nat) : Answer :=
  match part with
  | .summary => .ok (r.summaryBytes z)
  | .step =>
    match outcomeOf r.steps index with
    | some o => .ok (stepBytes z index o)
    | none => .error .badArgument
  | .findings => .ok (rangeBytes findingsPerReply ((r.findings.drop index).map Finding.bytes))

/-- The test record read (R163, R175). -/
def execTestRecordRead (p : Port) (b : Body TestReadArgs) (s : State) : Host.Outcome State Fault Refusal :=
  .next (s.serve Sys2Proof.Machine.Port.isStation
    (withFields b fun x => withId (zoneOfNumber x.zone) fun z s =>
      (s, (s.site.works.ts.records.look z).part z x.part x.index)) p)

/-- A port's entry in the link table read (R175). -/
def PortRec.linkBytes (r : PortRec) : List Byte := [r.link.code, byteOf r.windowLen, firstListed r.supervised]

/-- The link table read (R163, R175). -/
def execLinkTableRead (p : Port) (b : Body Unit) (s : State) : Host.Outcome State Fault Refusal :=
  .next (s.serve Sys2Proof.Machine.Port.isStation
    (withFields b fun _ s => (s, .ok (Port.all.flatMap fun q => (s.port q).linkBytes))) p)

end Sys2Proof.Machine
end

