-- ==== Sys2Proof/Machine/TestRequests.lean ====
section
/-!
DEFINITION. The requests of the Test Sequencer: TEST ZONE (R118, R119) and ABORT TEST (R125).
-/

namespace Sys2Proof.Machine

/-- The zone's configured plan block is a block number and that block is VALID (R118). -/
def State.ownPlanValid (s : State) (z : ZoneId) : Bool :=
  match (s.site.ic.config z).planBlock with
  | some b => (s.pmc.block b).state == .valid
  | none => false

/-- TEST ZONE's owner: the checks of R118 in their order, the hold brought into range, the start of the test (R119). -/
def testZoneOwner (b : Body TestArgs) : Owner :=
  withFields b fun x => withId (zoneOfNumber x.zone) fun z =>
    require (fun s => (s.site.ic.config z).present) .zoneAbsent <|
    require (fun s => !s.incident) .fireMode <|
    require (fun s => !s.testRunning) .testRunning <|
    require (fun s => (s.site.ic.config z).testPermitted && (s.site.zone z).state == .normal) .notPermitted <|
    require (fun s => s.ownPlanValid z) .noPlan <|
    require (fun s => s.pmc.ctrl == .ready) .planMemoryBusy <|
    fun s => accept (s.onSite fun m y => y.startTest m z (heldFor x.hold))

/-- TEST ZONE (R118, R119). -/
def execTestZone (p : Port) (b : Body TestArgs) (s : State) : Host.Outcome State Fault Refusal :=
  .next (s.serve Sys2Proof.Machine.Port.isBl (testZoneOwner b) p)

/-- ABORT TEST's owner (R125). -/
def abortTestOwner (b : Body Unit) : Owner :=
  withFields b fun _ =>
    require (fun s => s.testRunning) .nothingInProgress <|
    fun s => accept (s.onSite fun m x => x.abortTest m .abortTest)

/-- ABORT TEST (R125). -/
def execAbortTest (p : Port) (b : Body Unit) (s : State) : Host.Outcome State Fault Refusal :=
  .next (s.serve Sys2Proof.Machine.Port.isBl (abortTestOwner b) p)

end Sys2Proof.Machine
end

