-- ==== Sys2Proof/Machine/ByteArriving.lean ====
section
/-!
DEFINITION. The receiver (R146): one character at a time, and the request of a frame that completes valid (R148).
-/

namespace Sys2Proof.Machine

/-- What a byte does to a receiver that takes it (R146). -/
inductive Received where
  /-- HUNTING. -/
  | hunting
  /-- IN_FRAME, with the part awaited next. -/
  | awaiting (part : FramePart)
  /-- The frame is complete and its CRC matches: the body it carries. -/
  | frame (body : List Byte)
  /-- The frame is complete and its CRC does not match. -/
  | badCrc
deriving DecidableEq, Repr

/-- The first and the second byte of a frame (R145). -/
def sync1 : Byte := 0xD3#8
def sync2 : Byte := 0x2C#8

/-- A byte that arrives with a part of a frame awaited (R146). -/
def FramePart.take (part : FramePart) (b : Byte) : Received :=
  match part with
  | .sync2 => if b = Sys2Proof.Machine.sync2 then .awaiting .len else if b = sync1 then .awaiting .sync2 else .hunting
  | .len => if 1 ≤ b.toNat ∧ b.toNat ≤ 200 then .awaiting (.body b.toNat []) else .hunting
  | .body n got =>
    if got.length + 1 < n then .awaiting (.body n (got ++ [b])) else .awaiting (.crc (got ++ [b]) none)
  | .crc bs none => .awaiting (.crc bs (some b))
  | .crc bs (some first) =>
    if crc16 (byteOf bs.length :: bs) = number2 first b then .frame bs else .badCrc

/-- A byte that arrives in HUNTING (R146). -/
def huntingTake (b : Byte) : Received := if b = sync1 then .awaiting .sync2 else .hunting

/-- The request that a frame carried is taken as that request's own command is (R148); what is no request takes nothing. -/
def execRequest (i : Instr) (s : State) : Host.Outcome State Fault Refusal :=
  match i with
  | .poll p b => execPoll p b s
  | .ackRestart p b => execAckRestart p b s
  | .alarm p b => execAlarm p b s
  | .restore p b => execRestore p b s
  | .setZoneMode p b => execSetZoneMode p b s
  | .setOverride p b => execSetOverride p b s
  | .clearFault p b => execClearFault p b s
  | .setNormal p b => execSetNormal p b s
  | .testZone p b => execTestZone p b s
  | .abortTest p b => execAbortTest p b s
  | .restartController p b => execRestartController p b s
  | .eraseSetup p b => execEraseSetup p b s
  | .eraseConfirm p b => execEraseConfirm p b s
  | .writeRecord p b => execWriteRecord p b s
  | .commit p b => execCommit p b s
  | .suspend p b => execSuspend p b s
  | .resume p b => execResume p b s
  | .lock p b => execLock p b s
  | .lockDown p b => execLockDown p b s
  | .unlock p b => execUnlock p b s
  | .readRecord p b => execReadRecord p b s
  | .readBlockStates p b => execReadBlockStates p b s
  | .planStatus p b => execPlanStatus p b s
  | .clearPlanStatus p b => execClearPlanStatus p b s
  | .queryGeometry p b => execQueryGeometry p b s
  | .readReports p b => execReadReports p b s
  | .zoneTableRead p b => execZoneTableRead p b s
  | .actuatorTableRead p b => execActuatorTableRead p b s
  | .groupTableRead p b => execGroupTableRead p b s
  | .startQueueRead p b => execStartQueueRead p b s
  | .testRecordRead p b => execTestRecordRead p b s
  | .linkTableRead p b => execLinkTableRead p b s
  | .unknownRequestCode p c => execUnknownRequestCode p c s
  | .crcFailure _ | .gapExpiry _ | .replySent _ | .supervisionWindowExpiry _ | .purgeExpiry _ | .dwellExpiry _
  | .stepTimeoutExpiry _ | .holdExpiry | .travelTimerExpiry _ | .proofTimerExpiry _ | .runDownExpiry _
  | .staggerExpiry | .slewUpdate | .eraseCompletion _ | .writeCompletion | .commitCompletion | .switchChange _ _ _
  | .proofArrives _ | .proofLost _ | .commissioningInputOff | .commissioningInputOn | .powerOnReset
  | .resetInputAsserted | .resetInputReleased | .startUpOperation | .byteArriving _ _ _ => .next s

/-- The receiver of port `p` acts on what a byte brought (R146, R147, R148). From each byte that leaves it IN_FRAME the gap
is timed. -/
def State.received (s : State) (p : Port) (x : Received) : Host.Outcome State Fault Refusal :=
  match x with
  | .hunting => .next (s.modPort p fun r => { r with rx := .hunting })
  | .awaiting part => .next (s.modPort p fun r => { r with rx := .inFrame part s.now })
  | .badCrc => execCrcFailure p s
  | .frame body =>
    match decodeRequest p body with
    | some i => execRequest i s
    | none => .next (s.modPort p fun r => { r with rx := .hunting })

/-- BYTE_ARRIVING on port `p` (R146): taken in HUNTING and IN_FRAME. A character without its stop bit abandons a frame in
progress and counts as no error. -/
def execByteArriving (p : Port) (b : Byte) (stopBit : Bool) (s : State) : Host.Outcome State Fault Refusal :=
  if s.isRunning then
    match (s.port p).rx with
    | .hunting => s.received p (if stopBit then huntingTake b else .hunting)
    | .inFrame part _ => s.received p (if stopBit then part.take b else .hunting)
    | .replying _ => .next s
  else .next s

end Sys2Proof.Machine
end

