-- ==== Sys2Proof/Machine/InputEvents.lean ====
section
/-!
DEFINITION. The changes of debounced inputs (R66, R84, R141). During the start-up operation the channel inputs and the
commissioning input are followed, and their changes are acted on by nothing (R81, R82, R143).
-/

namespace Sys2Proof.Machine

/-- A change that an input makes on the channel side: `g` while the 6408 runs, `h` while it starts up. -/
def State.onInput (s : State) (g h : Plant → Plant) : State :=
  if s.isRunning then s.onPlant g else s.onWorksOnly fun w => w.onPlant h

/-- SWITCH_CHANGE of channel `a` to a new debounced pair (R66, R70 to R73, R75). -/
def execSwitchChange (a : ActId) (o c : Bool) (s : State) : Host.Outcome State Fault Refusal :=
  .next (s.onInput (fun x => x.switchChange a o c) fun x => x.setSwitches a o c)

/-- PROOF_ARRIVES at channel `a` (R90, R91). -/
def execProofArrives (a : ActId) (s : State) : Host.Outcome State Fault Refusal :=
  .next (s.onInput (fun x => x.proofArrives a) fun x => x.setProof a true)

/-- PROOF_LOST at channel `a` (R91, R92). -/
def execProofLost (a : ActId) (s : State) : Host.Outcome State Fault Refusal :=
  .next (s.onInput (fun x => x.proofLost a) fun x => x.setProof a false)

/-- The commissioning input's debounced state is recorded, and nothing else. -/
def Pmc.setCommissioning (m : Pmc) (v : Bool) : Pmc := { m with commissioning := Input.settle v }

/-- COMMISSIONING_INPUT_OFF (R141); a debounced state already off is no change. -/
def execCommissioningInputOff (s : State) : Host.Outcome State Fault Refusal :=
  .next (if s.pmc.commissioning.debounced then
      { s with pmc := if s.isRunning then s.pmc.commissioningOff else s.pmc.setCommissioning false }
    else s)

/-- COMMISSIONING_INPUT_ON (R141): it unlocks nothing; a debounced state already on is no change. -/
def execCommissioningInputOn (s : State) : Host.Outcome State Fault Refusal :=
  .next (if s.pmc.commissioning.debounced then s else { s with pmc := s.pmc.setCommissioning true })

end Sys2Proof.Machine
end

