-- ==== Sys2Proof/Machine/ResetEvents.lean ====
section
/-!
DEFINITION. The resets and the start-up operation as commands (R164, R165).
-/

namespace Sys2Proof.Machine

/-- POWER_ON_RESET (R164): taken in any state of the 6408. -/
def execPowerOnReset (s : State) : Host.Outcome State Fault Refusal := .next (s.beginStartUp .powerOn)

/-- RESET_INPUT_ASSERTED (R164): a warm restart, taken in any state, held at its first step.
Log entry 25: DESIGN CHOICE, safe. -/
def execResetInputAsserted (s : State) : Host.Outcome State Fault Refusal := .next (s.beginStartUp .resetInput)

/-- The reset input's debounced state becomes released (R164): a start-up operation held by it proceeds. -/
def State.resetReleased (s : State) : State :=
  let t := { s with resetInput := Input.settle false }
  match s.mode with
  | .startUp kind true _ => { t with mode := .startUp kind false 0 }
  | _ => t

/-- RESET_INPUT_RELEASED (R164). -/
def execResetInputReleased (s : State) : Host.Outcome State Fault Refusal := .next s.resetReleased

/-- START_UP_OPERATION (R165): it completes its steps, unless the reset input holds it or none is under way. -/
def execStartUpOperation (s : State) : Host.Outcome State Fault Refusal :=
  .next (match s.mode with
    | .startUp kind false _ => s.completeStartUp kind
    | _ => s)

end Sys2Proof.Machine
end

