-- ==== Sys2Proof/Machine/Dispatch.lean ====
section
/-!
DEFINITION. One arm for each command: its meaning.
-/

namespace Sys2Proof.Machine

def exec (i : Instr) (s : State) : Host.Outcome State Fault Refusal :=
  match i with
  | .poll p b => Sys2Proof.Machine.execPoll p b s
  | .ackRestart p b => Sys2Proof.Machine.execAckRestart p b s
  | .alarm p b => Sys2Proof.Machine.execAlarm p b s
  | .restore p b => Sys2Proof.Machine.execRestore p b s
  | .setZoneMode p b => Sys2Proof.Machine.execSetZoneMode p b s
  | .setOverride p b => Sys2Proof.Machine.execSetOverride p b s
  | .clearFault p b => Sys2Proof.Machine.execClearFault p b s
  | .setNormal p b => Sys2Proof.Machine.execSetNormal p b s
  | .testZone p b => Sys2Proof.Machine.execTestZone p b s
  | .abortTest p b => Sys2Proof.Machine.execAbortTest p b s
  | .restartController p b => Sys2Proof.Machine.execRestartController p b s
  | .eraseSetup p b => Sys2Proof.Machine.execEraseSetup p b s
  | .eraseConfirm p b => Sys2Proof.Machine.execEraseConfirm p b s
  | .writeRecord p b => Sys2Proof.Machine.execWriteRecord p b s
  | .commit p b => Sys2Proof.Machine.execCommit p b s
  | .suspend p b => Sys2Proof.Machine.execSuspend p b s
  | .resume p b => Sys2Proof.Machine.execResume p b s
  | .lock p b => Sys2Proof.Machine.execLock p b s
  | .lockDown p b => Sys2Proof.Machine.execLockDown p b s
  | .unlock p b => Sys2Proof.Machine.execUnlock p b s
  | .readRecord p b => Sys2Proof.Machine.execReadRecord p b s
  | .readBlockStates p b => Sys2Proof.Machine.execReadBlockStates p b s
  | .planStatus p b => Sys2Proof.Machine.execPlanStatus p b s
  | .clearPlanStatus p b => Sys2Proof.Machine.execClearPlanStatus p b s
  | .queryGeometry p b => Sys2Proof.Machine.execQueryGeometry p b s
  | .readReports p b => Sys2Proof.Machine.execReadReports p b s
  | .zoneTableRead p b => Sys2Proof.Machine.execZoneTableRead p b s
  | .actuatorTableRead p b => Sys2Proof.Machine.execActuatorTableRead p b s
  | .groupTableRead p b => Sys2Proof.Machine.execGroupTableRead p b s
  | .startQueueRead p b => Sys2Proof.Machine.execStartQueueRead p b s
  | .testRecordRead p b => Sys2Proof.Machine.execTestRecordRead p b s
  | .linkTableRead p b => Sys2Proof.Machine.execLinkTableRead p b s
  | .unknownRequestCode p code => Sys2Proof.Machine.execUnknownRequestCode p code s
  | .crcFailure p => Sys2Proof.Machine.execCrcFailure p s
  | .gapExpiry p => Sys2Proof.Machine.execGapExpiry p s
  | .replySent p => Sys2Proof.Machine.execReplySent p s
  | .supervisionWindowExpiry p => Sys2Proof.Machine.execSupervisionWindowExpiry p s
  | .purgeExpiry z => Sys2Proof.Machine.execPurgeExpiry z s
  | .dwellExpiry z => Sys2Proof.Machine.execDwellExpiry z s
  | .stepTimeoutExpiry z => Sys2Proof.Machine.execStepTimeoutExpiry z s
  | .holdExpiry => Sys2Proof.Machine.execHoldExpiry s
  | .travelTimerExpiry a => Sys2Proof.Machine.execTravelTimerExpiry a s
  | .proofTimerExpiry a => Sys2Proof.Machine.execProofTimerExpiry a s
  | .runDownExpiry a => Sys2Proof.Machine.execRunDownExpiry a s
  | .staggerExpiry => Sys2Proof.Machine.execStaggerExpiry s
  | .slewUpdate => Sys2Proof.Machine.execSlewUpdate s
  | .eraseCompletion verified => Sys2Proof.Machine.execEraseCompletion verified s
  | .writeCompletion => Sys2Proof.Machine.execWriteCompletion s
  | .commitCompletion => Sys2Proof.Machine.execCommitCompletion s
  | .switchChange a openSwitch closedSwitch => Sys2Proof.Machine.execSwitchChange a openSwitch closedSwitch s
  | .proofArrives a => Sys2Proof.Machine.execProofArrives a s
  | .proofLost a => Sys2Proof.Machine.execProofLost a s
  | .commissioningInputOff => Sys2Proof.Machine.execCommissioningInputOff s
  | .commissioningInputOn => Sys2Proof.Machine.execCommissioningInputOn s
  | .powerOnReset => Sys2Proof.Machine.execPowerOnReset s
  | .resetInputAsserted => Sys2Proof.Machine.execResetInputAsserted s
  | .resetInputReleased => Sys2Proof.Machine.execResetInputReleased s
  | .startUpOperation => Sys2Proof.Machine.execStartUpOperation s
  | .byteArriving p b stopBit => Sys2Proof.Machine.execByteArriving p b stopBit s

end Sys2Proof.Machine
end

