-- ==== Sys2Proof/Machine/Idle.lean ====
section
/-!
DEFINITION. What happens while no command waits: a timer whose deadline has come expires, an operation of the array
completes, the start-up operation ends; and otherwise one millisecond passes, with the sampling of the inputs, the slew
updates and the speed references that fall in it.
-/

namespace Sys2Proof.Machine

/-! ### What has come due -/

/-- A deadline has come. -/
def dueBy (now : Nat) (deadline : Option Nat) : Bool := deadline.any fun d => decide (d ≤ now)

/-- The gap of port `p` has expired: more than 5 ms since its last byte (R147). -/
def State.gapDue (s : State) (p : Port) : Bool :=
  match (s.port p).rx with
  | .inFrame _ since => decide (since + gapLimit < s.now)
  | _ => false

/-- The supervision window of port `p` has expired (R152). -/
def State.windowDue (s : State) (p : Port) : Bool := (s.port p).link == .online && dueBy s.now (s.port p).window

/-- The travel timer of channel `a` has expired (R74). -/
def Plant.travelDue (x : Plant) (a : ActId) : Bool :=
  match x.damper? a with
  | some d => (d.state == .opening || d.state == .closing) && dueBy x.now d.timer
  | none => false

/-- The proof timer of channel `a` has expired (R90). -/
def Plant.proofDue (x : Plant) (a : ActId) : Bool :=
  match x.fan? a with
  | some f => f.state == .starting && dueBy x.now f.proofTimer
  | none => false

/-- The run-down timer of channel `a` has expired (R92). -/
def Plant.runDownDue (x : Plant) (a : ActId) : Bool :=
  match x.fan? a with
  | some f => f.state == .stopping && dueBy x.now f.runDownTimer
  | none => false

/-- The dwell timer of zone `z` has expired (R35). -/
def Works.dwellDue (w : Works) (z : ZoneId) : Bool :=
  match w.ctx z with
  | some c =>
    match c.dwell with
    | .running d => decide (d ≤ w.plant.now)
    | _ => false
  | none => false

/-- The step timeout timer of zone `z` has expired (R36). -/
def Works.timeoutDue (w : Works) (z : ZoneId) : Bool :=
  match w.ctx z with
  | some c => dueBy w.plant.now c.timeout
  | none => false

/-- The purge timer of zone `z` has reached its deadline (R11). -/
def Site.purgeDue (x : Site) (z : ZoneId) : Bool :=
  (x.zone z).state == .restoring && dueBy x.works.plant.now (x.zone z).purge

/-- The hold timer has expired (R122). -/
def Works.holdDue (w : Works) : Bool :=
  match w.ts.test with
  | some u =>
    match u.phase with
    | .hold d => decide (d ≤ w.plant.now)
    | .plan => false
  | none => false

/-- The completion of the operation in progress, where its remaining time has reached 0 (R130). The verify of an erase
passes or fails by a free value. -/
def State.completionDue (s : State) : List Instr :=
  match s.pmc.ctrl with
  | .busy op d =>
    if d ≤ s.now then
      [match op with
        | .erase _ => .eraseCompletion (Config.eraseVerifies s.free)
        | .write _ _ _ => .writeCompletion
        | .commit _ => .commitCompletion]
    else []
  | _ => []

/-- The events that have come due while the 6408 runs, in the order in which the model takes them: the spec leaves the order
of expiries that fall together open. Log entry 2: DESIGN CHOICE, unsafe. -/
def State.due (s : State) : List Instr :=
  let x := s.site.works.plant
  (Port.all.filter s.gapDue).map .gapExpiry
    ++ (if dueBy x.now x.stagger then [.staggerExpiry] else [])
    ++ (allActs.filter x.travelDue).map .travelTimerExpiry
    ++ (allActs.filter x.proofDue).map .proofTimerExpiry
    ++ (allActs.filter x.runDownDue).map .runDownExpiry
    ++ (allZones.filter s.site.works.dwellDue).map .dwellExpiry
    ++ (allZones.filter s.site.works.timeoutDue).map .stepTimeoutExpiry
    ++ (allZones.filter s.site.purgeDue).map .purgeExpiry
    ++ (if s.site.works.holdDue then [.holdExpiry] else [])
    ++ s.completionDue
    ++ (Port.all.filter s.windowDue).map .supervisionWindowExpiry

/-! ### A millisecond -/

/-- The sampling period of the inputs in ms (R66). -/
def samplePeriod : Nat := 10

/-- One sample of the pair of inputs of channel `a` (R66): the pair after it, and the event it brings, if any. An input
whose debounced state is about to change stays as it is, and the event changes it; the other's record is its own. -/
def sampleChan (a : ActId) (c : Channel) (i : ChanInputs) : ChanInputs × List Instr :=
  let o := i.first.sample
  let e := i.second.sample
  match c with
  | .fan _ =>
    if o.2 then (⟨i.first, e.1⟩, [if o.1.debounced then .proofArrives a else .proofLost a]) else (⟨o.1, e.1⟩, [])
  | .damper _ | .unassigned =>
    (⟨if o.2 then i.first else o.1, if e.2 then i.second else e.1⟩,
      if o.2 || e.2 then [.switchChange a o.1.debounced e.1.debounced] else [])

/-- One sample of the commissioning input (R141). -/
def sampleCommissioning (i : Input) : Input × List Instr :=
  let o := i.sample
  if o.2 then (i, [if o.1.debounced then .commissioningInputOn else .commissioningInputOff]) else (o.1, [])

/-- One sample of the reset input (R164). -/
def sampleReset (i : Input) : Input × List Instr :=
  let o := i.sample
  if o.2 then (i, [if o.1.debounced then .resetInputAsserted else .resetInputReleased]) else (o.1, [])

/-- Every input is sampled once; the events that follow wait in the queue. Log entry 6: DESIGN CHOICE, unsafe. -/
def State.sample (s : State) : State :=
  let x := s.site.works.plant
  let chan (a : ActId) := sampleChan a (x.chans.look a) (x.inputs.look a)
  let com := sampleCommissioning s.pmc.commissioning
  let res := sampleReset s.resetInput
  { s.onWorksOnly fun w => { w with plant := { x with inputs := Table.of fun a => (chan a).1 } } with
    pmc := { s.pmc with commissioning := com.1 }
    resetInput := res.1
    samplePhase := 0
    pending := s.pending ++ allActs.flatMap (fun a => (chan a).2) ++ com.2 ++ res.2 }

/-- A millisecond passes for the inputs: a sample every tenth. -/
def State.samplePass (s : State) : State :=
  if s.samplePhase + 1 < samplePeriod then { s with samplePhase := s.samplePhase + 1 } else s.sample

/-- The interval of the slew updates in ms (R94). -/
def slewInterval : Nat := 100

/-- A millisecond of the Timebase passes while the 6408 runs. Log entry 6: DESIGN CHOICE, unsafe. -/
def State.tick (s : State) : State :=
  let n := s.now + 1
  let s := s.onWorksOnly fun w => w.onPlant fun x => x.reach n
  let s := if n % slewInterval = 0 then { s with pending := s.pending ++ [.slewUpdate] } else s
  s.samplePass

/-- The longest time the start-up operation takes once nothing holds it, in ms (R165). -/
def startUpLimit : Nat := 2000

/-- The start-up operation ends now: a free value within the stated limit. -/
def State.startUpDue (s : State) (elapsed : Nat) : Bool :=
  decide (Config.startUpTime s.free % (startUpLimit + 1) ≤ elapsed)

/-- The 6408 with no command waiting. Log entry 2: DESIGN CHOICE, unsafe. -/
def idle (s : State) : Host.Outcome State Fault Refusal :=
  match s.mode with
  | .running =>
    match s.due with
    | i :: _ => exec i { s with free := s.free + 1 }
    | [] => .next s.tick
  | .startUp kind held elapsed =>
    if !held && s.startUpDue elapsed then exec .startUpOperation { s with free := s.free + 1 }
    else .next { s with mode := .startUp kind held (if held then elapsed else elapsed + 1) }.samplePass

end Sys2Proof.Machine
end

