-- ==== Sys2Proof/Machine/Step.lean ====
section
/-!
DEFINITION. The step of the block: the command at the front of the queue, or idling; and the placing of a command that a word
spells at the front of the queue.
-/

namespace Sys2Proof.Machine

/-- The command at the front of the queue is taken, with the queue's rest; with none waiting the 6408 idles.
Log entry 1: DESIGN CHOICE, safe. -/
def step (s : State) : Host.Outcome State Fault Refusal :=
  match s.pending with
  | i :: rest => exec i { s with pending := rest }
  | [] => idle s

/-- The command that a word spells put at the front of the queue; nothing where it spells none. -/
def State.withFetchWord (s : State) (nbits w : Nat) : State :=
  match decodeTableWord nbits w with
  | some i => { s with pending := i :: s.pending }
  | none => s

end Sys2Proof.Machine
end

