-- ==== Sys2Proof/WellFormed.lean ====
section
/-!
DEFINITION. The well-formed commands: those whose operands fit the bytes that carry them on a line (R171, R172). A
command that is not well formed stands for no frame a master can send.
-/

namespace Sys2Proof

/-- The number fits one byte of a body. -/
def fitsByte (n : Nat) : Bool := n < 256

/-- The number fits the two bytes of a speed or a hold time. -/
def fitsTwoBytes (n : Nat) : Bool := n < 65536

/-- A body is well formed when its decoded fields are; a malformed body always can be sent. -/
def Body.wf {α : Type} (ok : α → Bool) : Body α → Bool
  | .fields a => ok a
  | .malformed => true

def ZoneModeArgs.wf (x : ZoneModeArgs) : Bool := fitsByte x.zone
def SettingArgs.wf (x : SettingArgs) : Bool := fitsByte x.actuator && fitsTwoBytes x.speed
def TestArgs.wf (x : TestArgs) : Bool := fitsByte x.zone && fitsTwoBytes x.hold
def WriteArgs.wf (x : WriteArgs) : Bool := fitsByte x.block && fitsByte x.position && x.record.length == 128
def PositionArgs.wf (x : PositionArgs) : Bool := fitsByte x.block && fitsByte x.position
def RangeArgs.wf (x : RangeArgs) : Bool := fitsByte x.first && fitsByte x.count
def ZoneReadArgs.wf : ZoneReadArgs → Bool
  | .range f c => fitsByte f && fitsByte c
  | .step z k => fitsByte z && fitsByte k
def TestReadArgs.wf (x : TestReadArgs) : Bool := fitsByte x.zone && fitsByte x.index

/-- The request codes of R172. -/
def requestCodes : List Nat :=
  [0x01, 0x02, 0x10, 0x11, 0x20, 0x21, 0x22, 0x30, 0x31, 0x32, 0x33,
   0x40, 0x41, 0x42, 0x43, 0x44, 0x45, 0x46, 0x47, 0x48, 0x49, 0x4A, 0x4B, 0x4C, 0x4D,
   0x50, 0x60, 0x61, 0x62, 0x63, 0x64, 0x65]

/-- The operands of a command fit the bytes that carry them; an unknown request code is none of R172's. -/
def Instr.wf : Instr → Bool
  | .alarm _ b | .restore _ b | .clearFault _ b | .eraseSetup _ b | .eraseConfirm _ b | .commit _ b
  | .lock _ b | .lockDown _ b | .unlock _ b | .readReports _ b | .groupTableRead _ b => b.wf fitsByte
  | .setZoneMode _ b => b.wf ZoneModeArgs.wf
  | .setOverride _ b | .setNormal _ b => b.wf SettingArgs.wf
  | .testZone _ b => b.wf TestArgs.wf
  | .writeRecord _ b => b.wf WriteArgs.wf
  | .readRecord _ b => b.wf PositionArgs.wf
  | .zoneTableRead _ b => b.wf ZoneReadArgs.wf
  | .actuatorTableRead _ b => b.wf RangeArgs.wf
  | .testRecordRead _ b => b.wf TestReadArgs.wf
  | .unknownRequestCode _ c => !requestCodes.contains c.toNat
  | .poll _ _ | .ackRestart _ _ | .abortTest _ _ | .restartController _ _ | .suspend _ _ | .resume _ _
  | .readBlockStates _ _ | .planStatus _ _ | .clearPlanStatus _ _ | .queryGeometry _ _ | .startQueueRead _ _
  | .linkTableRead _ _ => true
  | .crcFailure _ | .gapExpiry _ | .replySent _ | .supervisionWindowExpiry _ | .purgeExpiry _ | .dwellExpiry _
  | .stepTimeoutExpiry _ | .holdExpiry | .travelTimerExpiry _ | .proofTimerExpiry _ | .runDownExpiry _
  | .staggerExpiry | .slewUpdate | .eraseCompletion _ | .writeCompletion | .commitCompletion => true
  | .switchChange _ _ _ | .proofArrives _ | .proofLost _ | .commissioningInputOff | .commissioningInputOn
  | .powerOnReset | .resetInputAsserted | .resetInputReleased | .startUpOperation | .byteArriving _ _ _ => true

end Sys2Proof
end

