-- ==== Sys2Proof/Safety.lean ====
section
/-!
DEFINITION. What the statements speak of: the invariants that every step keeps, the classes of commands, and small readings of
the state.
-/

namespace Sys2Proof.Machine

/-! ### Readings -/

def State.plant (s : State) : Plant := s.site.works.plant

def State.zone (s : State) (z : ZoneId) : Zone := s.site.zone z

/-- No zone is executing. -/
def Works.NoneExecuting (w : Works) : Prop := ∀ z, w.ctx z = none

/-- Between events nothing waits for the Plan Executor or the Test Sequencer. -/
def Plant.Settled (x : Plant) : Prop := x.pxDue = [] ∧ x.notes = []

/-- The reply being sent on port `p` is ACCEPTED. -/
def State.Accepted (s : State) (p : Port) : Prop := ∃ st fields, (s.port p).rx = .replying ⟨none, st, fields⟩

/-- The reply being sent on port `p` is REFUSED with reason `e`, and carries no fields. -/
def State.Refused (s : State) (p : Port) (e : Reason) : Prop := ∃ st, (s.port p).rx = .replying ⟨some e, st, []⟩

/-! ### Classes of commands -/

/-- The port of a request command; none for an event. -/
def requestPort (i : Instr) : Option Port := (encodeRequest i).map Prod.fst

/-- The status reads (R161). -/
def isStatusRead : Instr → Bool
  | .zoneTableRead _ _ | .actuatorTableRead _ _ | .groupTableRead _ _ | .startQueueRead _ _ | .testRecordRead _ _
  | .linkTableRead _ _ => true
  | _ => false

/-- The plan-memory reads that leave even the flags (R142). -/
def isPlanRead : Instr → Bool
  | .readRecord _ _ | .readBlockStates _ _ | .planStatus _ _ | .queryGeometry _ _ => true
  | _ => false

/-- The plan-memory requests that act (R132). -/
def isActing : Instr → Bool
  | .eraseSetup _ _ | .eraseConfirm _ _ | .writeRecord _ _ | .commit _ _ | .suspend _ _ | .resume _ _ | .lock _ _
  | .lockDown _ _ | .unlock _ _ => true
  | _ => false

/-- The table of R150: whether a request is permitted on a port. -/
def permittedOn (i : Instr) (p : Port) : Bool :=
  let alarmLine : Bool := p matches .alarm _
  let ff : Bool := p matches .ff
  let bl : Bool := p matches .bl
  match i with
  | .poll _ _ | .ackRestart _ _ | .unknownRequestCode _ _ => true
  | .alarm _ _ | .restore _ _ => alarmLine
  | .setZoneMode _ _ | .setOverride _ _ | .clearFault _ _ => ff
  | .readReports _ _ | .zoneTableRead _ _ | .actuatorTableRead _ _ | .groupTableRead _ _ | .startQueueRead _ _
  | .testRecordRead _ _ | .linkTableRead _ _ => ff || bl
  | _ => bl

/-- Characters arriving with their stop bits one after another on a port. -/
def bytesArrive (p : Port) : List Byte → State → Host.Outcome State Fault Refusal
  | [], s => .next s
  | b :: bs, s =>
    match exec (.byteArriving p b true) s with
    | .next t => bytesArrive p bs t
    | o => o

/-! ### Reports -/

/-- A queue within its bounds (R158). -/
def ReportQueue.Bounded (q : ReportQueue) : Prop := q.reports.length ≤ 32 ∧ q.loss ≤ 255

def State.QueuesBounded (s : State) : Prop := s.plant.ffReports.Bounded ∧ s.plant.blReports.Bounded

/-! ### Channels -/

/-- A damper's drive is the one its target calls for (R65); a fan's run output is on exactly in STARTING, RUNNING and
RUN_FAULT (R85), and only then is its speed above 0. -/
def Channel.outputsFollow : Channel → Bool
  | .unassigned => true
  | .damper d => d.drive == (d.target != d.cfg.fail)
  | .fan f => f.run == f.state.energized && (f.run || (f.present == 0 && f.applied == 0))

def State.OutputsFollow (s : State) : Prop := s.mode = .running → ∀ a, (s.plant.chans.look a).outputsFollow = true

/-- Fan `a`, if it is energized, draws through path dampers that all stand AT_OPEN (R88). -/
def Plant.interlocked (x : Plant) (a : ActId) : Bool :=
  match x.fan? a with
  | some f => !f.energized || x.pathOpen f
  | none => true

/-- The interlock holds for every fan, and the start queue holds only fans that may be granted (R88, R97). -/
def State.InterlockHolds (s : State) : Prop :=
  s.mode = .running → (∀ a, s.plant.interlocked a = true) ∧ ∀ e ∈ s.plant.queue, s.plant.waitsForPermit e.fan = true

/-- No demand list holds two entries of one originator (R46). -/
def State.OneDemandEach (s : State) : Prop := ∀ a, ((s.plant.demands.look a).map Demand.orig).Nodup

/-- A position that a demand list of the channel may hold (R46): of the channel's kind, an ON speed not below the fan's
minimum. An UNASSIGNED channel's list holds none. -/
def Channel.admits : Channel → Position → Bool
  | .damper _, .damper _ => true
  | .fan _, .fan .off => true
  | .fan f, .fan (.on v) => decide (f.cfg.minSpeed ≤ v)
  | _, _ => false

/-- Every fan's minimum speed is at most 1000 ‰ (R83), every entry of a demand list fits its channel (R46), and every
channel's target, and a fan's class, are those of its resolved demand (R48, R49). -/
def Plant.TargetsFollow (x : Plant) : Prop :=
  (∀ a f, x.chans.look a = .fan f → f.cfg.minSpeed ≤ 1000)
    ∧ (∀ a, ∀ e ∈ x.demands.look a, (x.chans.look a).admits e.pos = true)
    ∧ (∀ a d, x.chans.look a = .damper d → ∃ c o, x.resolved a = some ⟨.damper d.target, c, o⟩)
    ∧ ∀ a f, x.chans.look a = .fan f → ∃ o, x.resolved a = some ⟨.fan f.target, f.cls, o⟩

def State.TargetsFollow (s : State) : Prop := s.mode = .running → s.plant.TargetsFollow

/-! ### Air balance -/

/-- The flow of fan `a` at its applied speed, in mL/s (R110). -/
def Plant.appliedFlow (x : Plant) (a : ActId) : Nat :=
  match x.fan? a with
  | some f => f.cfg.rated * f.applied
  | none => 0

/-- The figures of group `g` are those of the channels as they stand (R103), its energized fans all stand in its grant history
(R98), and in a checked group the flow of the scaled fans at their applied speeds is within the available capacity (R110). -/
structure Plant.BalancedIn (x : Plant) (g : GroupId) : Prop where
  current : x.figs.look g = x.figures g
  granted : ∀ a f, x.chans.look a = .fan f → f.cfg.group = some g → f.energized = true → a ∈ x.history.look g
  within : x.checked g = true → ((x.scaledSet g).map x.appliedFlow).sum ≤ (x.figs.look g).available

def State.Balanced (s : State) : Prop := s.mode = .running → ∀ g, s.plant.BalancedIn g

/-! ### Zones -/

/-- A state in the fire order (R4). -/
def ZoneState.inFire : ZoneState → Bool
  | .active | .restoring => true
  | _ => false

/-- A state in which a zone executes (R2). -/
def ZoneState.executes : ZoneState → Bool
  | .active | .restoring | .testing => true
  | _ => false

/-- The zone table, the fire order, the locked-out list, the contexts and the test agree (R2, R4, R6, R24, R116). -/
structure Site.Consistent (x : Site) : Prop where
  orderOnce : x.ic.fireOrder.Nodup
  lockedOnce : x.ic.lockedOut.Nodup
  order : ∀ z, z ∈ x.ic.fireOrder ↔ (x.zone z).state.inFire = true
  locked : ∀ z, z ∈ x.ic.lockedOut ↔ (x.zone z).state = .lockedOut
  origin : ∀ z, (x.zone z).origin.isSome = true ↔ z ∈ x.ic.fireOrder
  rank : ∀ z, (x.zone z).rank.isSome = true ↔ z ∈ x.ic.fireOrder
  purge : ∀ z, (x.zone z).purge.isSome = true ↔ (x.zone z).state = .restoring
  executing : ∀ z, (x.works.ctx z).isSome = true ↔ (x.zone z).state.executes = true
  testing : ∀ z, (x.zone z).state = .testing ↔ ∃ u, x.works.ts.test = some u ∧ u.zone = z
  counter : x.ic.rank ≤ Config.max32
  given : ∀ z ∈ x.ic.fireOrder, x.ic.rankOf z ≤ x.ic.rank
  emptied : x.ic.fireOrder = [] → x.ic.lockedOut = []

def State.ZonesConsistent (s : State) : Prop := s.mode = .running → s.site.Consistent

/-- The fire order is sorted: FF ahead of ALARM, and within each by rank; no rank is held twice (R4, R5). -/
def Incident.Sorted (ic : Incident) : Prop :=
  ic.fireOrder.Pairwise (fun y z => ic.orderKey y < ic.orderKey z) ∧ (ic.fireOrder.map ic.rankOf).Nodup

/-! ### Demand lists -/

/-- The party that holds entry `e` of the list of channel `a` (R46, R52): FF a MANUAL entry, BL a NORMAL one, a zone an entry of
its context's class whose actuator and position stand in its posted table. -/
def Works.Held (w : Works) (a : ActId) (e : Demand) : Prop :=
  match e.orig with
  | .ff => e.cls = .manual
  | .bl => e.cls = .normal
  | .zone z => ∃ c, w.ctx z = some c ∧ e.cls = c.cls.demand ∧ (a, e.pos) ∈ c.posted

/-- The demand lists agree with the fire order and the posted tables: each list in the order of R47, with one entry of an
originator at most (R46); its entries held by their originators, and every record of a posted table by an entry (R24, R42);
and a context of class TEST exactly for a zone in TESTING (R24). -/
structure Site.DemandsRight (x : Site) : Prop where
  ordered : ∀ a, (x.works.plant.demands.look a).Pairwise
    fun d e => demandKey x.ic.fireOrder d < demandKey x.ic.fireOrder e
  once : ∀ a, ((x.works.plant.demands.look a).map Demand.orig).Nodup
  held : ∀ a, ∀ e ∈ x.works.plant.demands.look a, x.works.Held a e
  postedOnce : ∀ z c, x.works.ctx z = some c → (c.posted.map Prod.fst).Nodup
  posted : ∀ z c, x.works.ctx z = some c → ∀ r ∈ c.posted, ∃ e ∈ x.works.plant.demands.look r.1, e.orig = .zone z
  cls : ∀ z c, x.works.ctx z = some c → (c.cls = .test ↔ (x.zone z).state = .testing)

def State.DemandsRight (s : State) : Prop := s.mode = .running → s.site.DemandsRight

/-! ### Plan memory -/

/-- No operation is in progress unsuspended while an incident is under way (R139). -/
def State.QuietInIncident (s : State) : Prop := s.incident = true → s.pmc.ctrl.isBusy = false

/-- The state a block stands in while an operation targets it (R128). -/
def ArrayOp.blockState : ArrayOp → BlockState
  | .erase _ => .erasing
  | .write _ _ _ => .opened
  | .commit _ => .opened

/-- The target of an operation stands in the operation's state, and is UNLOCKED while the operation is in progress (R128,
R129). -/
def Pmc.Guarded (m : Pmc) : Prop :=
  match m.ctrl with
  | .busy op _ => (m.block op.target).state = op.blockState ∧ (m.block op.target).lock = .unlocked
  | .suspended op _ => (m.block op.target).state = op.blockState
  | _ => True

/-- What block `b` holds is the same in both: positions, bytes and commit mark. -/
def Pmc.SameContents (m n : Pmc) (b : BlockId) : Prop :=
  (m.block b).conds = (n.block b).conds ∧ (m.block b).commitMark = (n.block b).commitMark
    ∧ ∀ k, k / 4096 = b.val → Memory.read m.mem k = Memory.read n.mem k

end Sys2Proof.Machine
end

