-- ==== Sys2Proof/Certificates/Slice0/Obligations.lean ====
section
/-!
DEFINITION. The statements for the provers. Each docstring names the rules of spec/ that the statement formalises, or the log
entry of a choice it rests on.
-/

open Sys2Proof Sys2Proof.Machine

/-! ### The queue of commands and the step -/

/-- The step takes the command at the front of the queue and runs it with the queue's rest (the model's queue, log entry 1). -/
def Obligations.StepRunsTheFrontCommand : Prop :=
  ∀ (i : Instr) (rest : List Instr) (s : State),
    s.pending = i :: rest → step s = exec i { s with pending := rest }

/-- Every command completes with a next state, and none touches the queue of waiting commands (the model's queue and its reading
of events that cannot come: log entries 1, 5 and 26). -/
def Obligations.EveryCommandCompletesAndKeepsTheQueue : Prop :=
  ∀ (i : Instr) (s : State), ∃ t, exec i s = .next t ∧ t.pending = s.pending

/-- With no command waiting, a step takes the first event that has come due, and with nothing due it passes one millisecond of the
Timebase and leaves the zones, plan memory and the mode (log entry 2: the model's choice). -/
def Obligations.AnIdleStepTakesWhatIsDueOrPassesAMillisecond : Prop :=
  (∀ (s : State) (i : Instr) (rest : List Instr), s.mode = .running → s.pending = [] → s.due = i :: rest →
      step s = exec i { s with free := s.free + 1 })
    ∧ ∀ s : State, s.mode = .running → s.pending = [] → s.due = [] →
      ∃ t, step s = .next t ∧ t.now = s.now + 1 ∧ t.mode = .running ∧ t.site.ic = s.site.ic
        ∧ t.site.works.px = s.site.works.px ∧ t.site.works.ts = s.site.works.ts ∧ t.pmc.mem = s.pmc.mem
        ∧ t.pmc.blocks = s.pmc.blocks ∧ t.pmc.ctrl = s.pmc.ctrl ∧ t.ports = s.ports ∧ t.plant.demands = s.plant.demands

/-- The inputs are sampled together every 10 ms, and an input's debounced state changes at the third of three consecutive samples
that differ from it, whatever its partner's samples are (R66, R84, R141). A change of one switch of a damper, or of both at one
sample, brings one switch change event with the new pair, and a change of a fan's proof one proof event. That the event waits in
the queue of commands, and makes the change when it is taken, is the model's choice: log entry 6. -/
def Obligations.AnInputChangesAtItsThirdDifferingSample : Prop :=
  ∀ s : State,
    let t := s.samplePass
    let x := s.plant
    let flips (i : Input) : Prop := i.pin ≠ i.debounced ∧ 2 ≤ i.differing
    let counted (i j : Input) : Prop :=
      (i.pin = i.debounced → j = { i with differing := 0 })
        ∧ (i.pin ≠ i.debounced → i.differing < 2 → j = { i with differing := i.differing + 1 })
    let takes (i : Input) (v : Bool) : Prop := (flips i → v = i.pin) ∧ (¬ flips i → v = i.debounced)
    (s.samplePhase + 1 < 10 → t = { s with samplePhase := s.samplePhase + 1 })
      ∧ (10 ≤ s.samplePhase + 1 → ∃ events, t.pending = s.pending ++ events ∧ t.samplePhase = 0
        ∧ t.plant = { x with inputs := t.plant.inputs } ∧ t.site.ic = s.site.ic ∧ t.ports = s.ports
        ∧ (∀ a, counted (x.inputs.look a).first (t.plant.inputs.look a).first
          ∧ counted (x.inputs.look a).second (t.plant.inputs.look a).second)
        ∧ (∀ a d, x.chans.look a = .damper d →
          let i := x.inputs.look a
          let mine := events.filter fun e => match e with
            | .switchChange b _ _ => b == a
            | _ => false
          (¬ flips i.first → ¬ flips i.second → mine = [])
          ∧ (flips i.first ∨ flips i.second →
            ∃ o c, mine = [.switchChange a o c] ∧ takes i.first o ∧ takes i.second c))
        ∧ (∀ a f, x.chans.look a = .fan f →
          let i := (x.inputs.look a).first
          let mine := events.filter fun e => match e with
            | .proofArrives b => b == a
            | .proofLost b => b == a
            | _ => false
          (¬ flips i → mine = []) ∧ (flips i → mine = [if i.pin then .proofArrives a else .proofLost a]))
        ∧ let com := s.pmc.commissioning
          (¬ flips com → Instr.commissioningInputOn ∉ events ∧ Instr.commissioningInputOff ∉ events)
          ∧ (flips com → (if com.pin then Instr.commissioningInputOn else .commissioningInputOff) ∈ events))

/-! ### Invariants -/

/-- At reset every invariant stated below holds. The state after reset rests on choices of the model: log entry 3. -/
def Obligations.ResetMeetsEveryInvariant : Prop :=
  Memory.wf State.reset.pmc.mem = true ∧ State.reset.QueuesBounded ∧ State.reset.plant.Settled
    ∧ State.reset.OutputsFollow ∧ State.reset.InterlockHolds ∧ State.reset.OneDemandEach ∧ State.reset.DemandsRight
    ∧ State.reset.TargetsFollow ∧ State.reset.Balanced ∧ State.reset.ZonesConsistent ∧ State.reset.site.ic.Sorted
    ∧ State.reset.QuietInIncident ∧ State.reset.pmc.Guarded

/-- Every step keeps the canonical form of the plan memory array's bytes (R127, R173); both report queues within 32 reports and
both loss counts within 255 (R158); between events, nothing handed to the Plan Executor or the Test Sequencer untaken (R34, R101;
the two lists of what is handed are the model's own: log entries 8 and 27); no erase, write or commit in progress unsuspended
while the fire order is non-empty (R139); and the target of an operation in its state, and UNLOCKED while the operation is in
progress (R128, R129). -/
def Obligations.EveryStepKeepsTheStoresInForm : Prop :=
  (∀ s t : State, Memory.wf s.pmc.mem = true → step s = .next t → Memory.wf t.pmc.mem = true)
    ∧ (∀ s t : State, s.QueuesBounded → step s = .next t → t.QueuesBounded)
    ∧ (∀ s t : State, s.plant.Settled → step s = .next t → t.plant.Settled)
    ∧ (∀ s t : State, s.QuietInIncident → step s = .next t → t.QuietInIncident)
    ∧ ∀ s t : State, s.pmc.Guarded → step s = .next t → t.pmc.Guarded

/-- Every step keeps every damper's drive as its target calls for (R65), every fan's run output on exactly in STARTING, RUNNING
and RUN_FAULT (R85), and the present and applied speeds of a fan with its run output off at 0 (R94, R95). -/
def Obligations.EveryStepKeepsTheOutputsFollowingTheState : Prop :=
  ∀ s t : State, s.OutputsFollow → step s = .next t → t.OutputsFollow

/-- Every step keeps the duct interlock: a fan's run output is energized only while every damper in its path list is AT_OPEN
(R88), and the start queue holds only fans in WAIT_PERMIT whose path is open (R97). -/
def Obligations.EveryStepKeepsTheDuctInterlock : Prop :=
  ∀ s t : State, s.InterlockHolds → step s = .next t → t.InterlockHolds

/-- Every step keeps every demand list in the order of R47, the FIRE entries in fire order as it stands (R53), with one entry of
an originator at most (R46), each entry held by the party that may place its class (R47, R52), and each zone's entries exactly
those of its posted table (R24, R42). -/
def Obligations.EveryStepKeepsTheDemandListsInOrder : Prop :=
  (∀ s t : State, s.OneDemandEach → step s = .next t → t.OneDemandEach)
    ∧ ∀ s t : State, s.ZonesConsistent → s.DemandsRight → step s = .next t → t.DemandsRight

/-- Every step keeps every channel's target, and every fan's class, those of its resolved demand, the head of its demand list or
its rest position (R48, R49), and every entry of a list fitting its channel (R46). -/
def Obligations.EveryStepKeepsTheTargetsResolved : Prop :=
  ∀ s t : State, s.TargetsFollow → step s = .next t → t.TargetsFollow

/-- Every step keeps the figures of every group those of the channels as they stand (R103, R105), every energized fan in its
group's grant history (R98), and in every checked group the flow of the scaled set at its applied speeds within the available
capacity (R110). -/
def Obligations.EveryStepKeepsTheAirInBalance : Prop :=
  ∀ s t : State, s.Balanced → step s = .next t → t.Balanced

/-- Every step keeps the zone table, the fire order, the locked-out list, the execution contexts and the test in progress in
agreement (R2, R4, R6, R24, R116), and the fire order sorted, FF ahead of ALARM and each by rank, with no rank held twice (R4,
R5). -/
def Obligations.EveryStepKeepsTheZonesConsistent : Prop :=
  (∀ s t : State, s.ZonesConsistent → step s = .next t → t.ZonesConsistent)
    ∧ ∀ s t : State, s.ZonesConsistent → (s.mode = .running → s.site.ic.Sorted) → step s = .next t →
      (t.mode = .running → t.site.ic.Sorted)

/-- A VALID block holds its contents unchanged through every step (R26, R128); so does a block that is not UNLOCKED, unless the
step takes a reset that cuts off the operation suspended on it (R129, R143): every step that leaves the 6408 running keeps it. -/
def Obligations.AValidOrLockedBlockKeepsItsContents : Prop :=
  ∀ (s t : State) (b : BlockId), s.pmc.Guarded →
    ((s.pmc.block b).state = .valid
      ∨ ((s.pmc.block b).lock ≠ .unlocked ∧ (s.pmc.ctrl.target ≠ some b ∨ t.mode = .running))) →
    step s = .next t → t.pmc.SameContents s.pmc b

/-! ### Links: requests and replies -/

/-- The life of a request on its port. A valid frame serves supervision (R152): the window is restarted with its length where the
port is supervised, and a SILENT port becomes ONLINE with a LINK_RESTORED report in both queues. The reply carries the port status
as it stands once the owner has acted (R149): restart flag, incident flag, lead zone, and on FF and BL the report count and loss
count of the port's own queue. The end of a reply returns the port to HUNTING and changes nothing else, unless it is the reply to
an accepted RESTART CONTROLLER (R148). -/
def Obligations.ARequestIsSupervisedAnsweredAndEnded : Prop :=
  (∀ (s : State) (p : Port),
      let r := s.port p
      let v := s.supervise p
      v.port p = { r with
          link := .online, window := if r.supervised then some (s.now + r.windowLen * 1000) else none }
        ∧ (∀ q, q ≠ p → v.port q = s.port q)
        ∧ (r.link = .online → v.site = s.site)
        ∧ (r.link = .silent → v.site = s.site.report .linkRestored (some (.port p)) (some (.link .online)) none)
        ∧ v.pmc = s.pmc ∧ v.mode = s.mode ∧ v.resetInput = s.resetInput ∧ v.restartDue = s.restartDue ∧ v.free = s.free
        ∧ v.samplePhase = s.samplePhase ∧ v.pending = s.pending)
    ∧ (∀ (s : State) (p : Port) (a : Answer),
      let t := s.reply p a
      (∃ e fields, (t.port p).rx = .replying ⟨e, ⟨(t.port p).restart, !t.site.ic.fireOrder.isEmpty,
          t.site.ic.fireOrder.head?,
          match p with
          | .alarm _ => none
          | .ff => some (t.plant.ffReports.reports.length, t.plant.ffReports.loss)
          | .bl => some (t.plant.blReports.reports.length, t.plant.blReports.loss)⟩, fields⟩)
        ∧ t.site = s.site ∧ t.pmc = s.pmc ∧ (∀ q, q ≠ p → t.port q = s.port q))
    ∧ ∀ (s : State) (p : Port) (r : Reply), s.mode = .running → (s.port p).rx = .replying r →
      (p ≠ .bl ∨ s.restartDue = false) →
      exec (.replySent p) s = .next { s with ports := s.ports.put p.index { s.port p with rx := .hunting } }

/-- A request on a port that does not permit it is refused NOT_PERMITTED_ON_PORT (R148, R150). A request that is refused, for
whatever reason, and is no plan-memory request that acts, changes nothing but the supervision of its port: no state of a zone, a
channel, a test or plan memory (R8, R12, R55, R58, R118, R125, R155, R159, R161). -/
def Obligations.ARefusedRequestChangesNothingElse : Prop :=
  (∀ (i : Instr) (p : Port) (s : State), requestPort i = some p → s.taking p = true → permittedOn i p = false →
      exec i s = .next ((s.supervise p).reply p (.error .notPermittedOnPort)))
    ∧ ∀ (i : Instr) (p : Port) (s t : State) (e : Reason) (st : PortStatus) (fields : List Byte),
      requestPort i = some p → isActing i = false → s.taking p = true → exec i s = .next t →
      (t.port p).rx = .replying ⟨some e, st, fields⟩ → t = (s.supervise p).reply p (.error e)

/-- What every request leaves as it was: the mode, every other port (R144), its own port's window length and supervision (R152),
the cabinet inputs, the Timebase, the channel inputs (R66), the travel statistics (R78), the bytes, positions and commit marks of
plan memory (R136, R137), and every configured field (R1, R64, R83, R102, R170). A status read or a plan-memory read changes no
state but that of its own port (R142, R161): the zones, channels, tests, reports and plan memory stay as supervision left them,
and so does a pending erase setup. -/
def Obligations.ARequestLeavesTheRestAsItWas : Prop :=
  (∀ (i : Instr) (p : Port) (s t : State), requestPort i = some p → exec i s = .next t →
      t.mode = s.mode ∧ (∀ q, q ≠ p → t.port q = s.port q) ∧ (t.port p).windowLen = (s.port p).windowLen
        ∧ (t.port p).supervised = (s.port p).supervised ∧ t.resetInput = s.resetInput ∧ t.samplePhase = s.samplePhase
        ∧ t.now = s.now ∧ t.plant.inputs = s.plant.inputs ∧ t.plant.stats = s.plant.stats
        ∧ t.pmc.mem = s.pmc.mem ∧ (∀ b, (t.pmc.block b).conds = (s.pmc.block b).conds)
        ∧ (∀ b, (t.pmc.block b).commitMark = (s.pmc.block b).commitMark)
        ∧ t.pmc.commissioning = s.pmc.commissioning
        ∧ t.site.ic.cfg = s.site.ic.cfg ∧ t.plant.groups = s.plant.groups
        ∧ t.plant.staggerInterval = s.plant.staggerInterval
        ∧ (∀ a, s.plant.chans.look a = .unassigned → t.plant.chans.look a = .unassigned)
        ∧ (∀ a d, s.plant.chans.look a = .damper d → ∃ e, t.plant.chans.look a = .damper e ∧ e.cfg = d.cfg)
        ∧ ∀ a f, s.plant.chans.look a = .fan f → ∃ g, t.plant.chans.look a = .fan g ∧ g.cfg = f.cfg)
    ∧ ∀ (i : Instr) (p : Port) (s t : State), requestPort i = some p → isStatusRead i = true ∨ isPlanRead i = true →
      exec i s = .next t →
      t.pmc = s.pmc ∧ t.site = (if s.taking p then s.supervise p else s).site ∧ t.free = s.free
        ∧ t.restartDue = s.restartDue

/-- POLL is ACCEPTED on every port: the error count as it stands is reported and then 0; an alarm line is also sent the fire order
and the locked-out list (R151). ACK RESTART clears the restart-pending flag of its own port (R154). Body bytes beyond the code are
refused BAD_ARGUMENT, and so is a code of no request (R148). -/
def Obligations.PollAndAckRestartActOnTheirOwnPort : Prop :=
  ∀ (s : State) (p : Port), s.taking p = true →
    let v := s.supervise p
    let refused (i : Instr) : Prop := exec i s = .next (v.reply p (.error .badArgument))
    exec (.poll p (.fields ())) s = .next ((v.modPort p fun r => { r with errors := 0 }).reply p
        (.ok (byteOf (s.port p).errors :: (match p with
          | .alarm _ => zoneList s.site.ic.fireOrder ++ zoneList s.site.ic.lockedOut
          | _ => []))))
      ∧ (∃ t, exec (.ackRestart p (.fields ())) s = .next t ∧ t.Accepted p ∧ (t.port p).restart = false
        ∧ (∀ q, q ≠ p → (t.port q).restart = (s.port q).restart) ∧ t.site = v.site ∧ t.pmc = s.pmc)
      ∧ refused (.poll p .malformed) ∧ refused (.ackRestart p .malformed)
      ∧ ∀ code, refused (.unknownRequestCode p code)

/-- RESTART CONTROLLER is refused BAD_ARGUMENT, FIRE_MODE, TEST_RUNNING and PLAN_MEMORY_BUSY in that order, and otherwise
ACCEPTED; the warm restart begins when the last byte of its reply has been sent, whatever the other ports are asked meanwhile
(R155). -/
def Obligations.RestartControllerWaitsForItsReply : Prop :=
  (∀ s : State, s.taking .bl = true →
      let v := s.supervise .bl
      let restart : Instr := .restartController .bl (.fields ())
      let refused (i : Instr) (e : Reason) : Prop := exec i s = .next (v.reply .bl (.error e))
      refused (.restartController .bl .malformed) .badArgument
        ∧ (s.incident = true → refused restart .fireMode)
        ∧ (s.incident = false → s.testRunning = true → refused restart .testRunning)
        ∧ (s.incident = false → s.testRunning = false → s.pmc.ctrl.operating = true → refused restart .planMemoryBusy)
        ∧ (s.incident = false → s.testRunning = false → s.pmc.ctrl.operating = false →
          exec restart s = .next ({ v with restartDue := true }.reply .bl (.ok []))))
    ∧ ∀ (s : State) (r : Reply), s.mode = .running → (s.port .bl).rx = .replying r → s.restartDue = true →
      (∃ t, exec (.replySent .bl) s = .next t ∧ t.mode = .startUp .restartRequest false 0)
        ∧ ∀ (i : Instr) (p : Port) (t : State), requestPort i = some p → p ≠ .bl → exec i s = .next t →
          t.mode = .running ∧ t.restartDue = true ∧ (t.port .bl).rx = .replying r

/-! ### Links: frames -/

/-- A body of 1 to 200 bytes and the first CRC byte, received byte by byte from HUNTING behind its D3h, 2Ch and length, leave the
receiver awaiting the second CRC byte. Where that byte completes the CRC of the frame, the request of the body is taken; where it
does not, the frame is abandoned, the error count rises by 1 up to 255, and nothing is handed to any block (R145 to R148). -/
def Obligations.ReceivingAFrameTakesItsRequest : Prop :=
  ∀ (s : State) (p : Port) (body : List Byte) (hi lo : Byte),
    s.mode = .running → (s.port p).rx = .hunting → 1 ≤ body.length → body.length ≤ 200 →
    let crc := crc16 (byteOf body.length :: body)
    let u := s.modPort p fun r => { r with rx := .inFrame (.crc body (some hi)) s.now }
    bytesArrive p ([0xD3#8, 0x2C#8, byteOf body.length] ++ body ++ [hi]) s = .next u
      ∧ (∀ i, hi.toNat * 256 + lo.toNat = crc → decodeRequest p body = some i →
        exec (.byteArriving p lo true) u = exec i u)
      ∧ (hi.toNat * 256 + lo.toNat ≠ crc → exec (.byteArriving p lo true) u = .next { s with
        ports := s.ports.put p.index { s.port p with rx := .hunting, errors := min 255 ((s.port p).errors + 1) } })

/-- The receiver's table (R146): what each byte does in HUNTING and with SYNC2, LEN, BODY and the first CRC byte awaited, and a
character without its stop bit. A CRC that does not match abandons the frame and raises the error count by 1, staying at 255; a
gap abandons the frame and counts nothing; neither restarts the window (R147). At the gap's expiry the Timebase stands at least 5
ms after the last byte: log entry 5, the model's choice. -/
def Obligations.TheReceiverHuntsForAFrame : Prop :=
  (∀ (s : State) (p : Port) (b : Byte), s.mode = .running →
      let rx (x : RxState) : State := s.modPort p fun r => { r with rx := x }
      let takes (x : RxState) : Prop := exec (.byteArriving p b true) s = .next (rx x)
      ((s.port p).rx = .hunting → takes (if b = 0xD3#8 then .inFrame .sync2 s.now else .hunting))
        ∧ (∀ n, (s.port p).rx = .inFrame .sync2 n → takes (
            if b = 0x2C#8 then .inFrame .len s.now else if b = 0xD3#8 then .inFrame .sync2 s.now else .hunting))
        ∧ (∀ n, (s.port p).rx = .inFrame .len n → takes (
            if b = 0#8 ∨ 200 < b.toNat then .hunting else .inFrame (.body b.toNat []) s.now))
        ∧ (∀ len got n, (s.port p).rx = .inFrame (.body len got) n → takes (
            if got.length + 1 < len then .inFrame (.body len (got ++ [b])) s.now
            else .inFrame (.crc (got ++ [b]) none) s.now))
        ∧ (∀ body n, (s.port p).rx = .inFrame (.crc body none) n → takes (.inFrame (.crc body (some b)) s.now))
        ∧ (∀ part n, (s.port p).rx = .inFrame part n → exec (.byteArriving p b false) s = .next (rx .hunting))
        ∧ ((s.port p).rx = .hunting → exec (.byteArriving p b false) s = .next s)
        ∧ (∀ r, (s.port p).rx = .replying r → exec (.byteArriving p b true) s = .next s))
    ∧ ∀ (s : State) (p : Port) (part : FramePart) (n : Nat), s.mode = .running → (s.port p).rx = .inFrame part n →
      exec (.crcFailure p) s = .next { s with
          ports := s.ports.put p.index { s.port p with rx := .hunting, errors := min 255 ((s.port p).errors + 1) } }
        ∧ ∃ t, exec (.gapExpiry p) s = .next t ∧ t.port p = { s.port p with rx := .hunting }
          ∧ (∀ q, q ≠ p → t.port q = s.port q) ∧ t.now = max s.now (n + 5)
          ∧ t.site = { s.site with works := { s.site.works with plant := s.plant.reach (n + 5) } } ∧ t.pmc = s.pmc

/-- The expiry of a supervision window makes the port SILENT with its window stopped, and LINK_SILENT with the window length joins
both queues where they have room (R152). For a port other than BL nothing else happens. The silence of BL withdraws every NORMAL
entry and aborts the test in progress: its record is ABORTED with cause BL_SILENT and the time as end time, no finding of it
removed or lowered (R120), its TEST_RESULT the event's last report (R126), and its zone NORMAL and executing no more; a pending
erase setup stays (R62, R124, R153). The Timebase then stands at least at the deadline: log entry 5, the model's choice. -/
def Obligations.AWindowExpirySilencesThePort : Prop :=
  ∀ (s : State) (p : Port) (d : Nat), s.mode = .running → (s.port p).link = .online → (s.port p).window = some d →
    let old := s.site.works.ts
    let silent : Report :=
      ⟨.linkSilent, max s.now d % 4294967296, some (.port p), some (.link .silent), some (.window (s.port p).windowLen)⟩
    let joins (q r : ReportQueue) : Prop := q.reports.length < 32 → ∃ more, r.reports = q.reports ++ silent :: more
    ∃ t, exec (.supervisionWindowExpiry p) s = .next t
      ∧ t.port p = { s.port p with link := .silent, window := none } ∧ (∀ q, q ≠ p → t.port q = s.port q)
      ∧ t.now = max s.now d ∧ t.site.ic.fireOrder = s.site.ic.fireOrder ∧ t.pmc = s.pmc
      ∧ joins s.plant.ffReports t.plant.ffReports ∧ joins s.plant.blReports t.plant.blReports
      ∧ (p ≠ .bl → t.site = { s.site with works := { s.site.works with
        plant := (s.plant.reach d).report .linkSilent (some (.port p)) (some (.link .silent))
            (some (.window (s.port p).windowLen)) } })
      ∧ (p = .bl → t.testRunning = false ∧ (∀ a, ∀ e ∈ t.plant.demands.look a, e.orig ≠ .bl)
        ∧ (old.test = none → t.site.ic = s.site.ic ∧ t.site.works.ts = old)
        ∧ ∀ u, old.test = some u →
          let r := old.records.look u.zone
          let result : Report := ⟨.testResult, max s.now d % 4294967296, some (.zone u.zone), some (.test .aborted),
            some (.abortCause .blSilent)⟩
          let ends (q : ReportQueue) : Prop := q.reports.length < 32 → q.reports.getLast? = some result
          t.zone u.zone = { s.zone u.zone with state := .normal } ∧ t.site.works.ctx u.zone = none
          ∧ (∀ z, z ≠ u.zone → t.zone z = s.zone z ∧ t.site.works.ts.records.look z = old.records.look z)
          ∧ ends t.plant.ffReports ∧ ends t.plant.blReports
          ∧ ∃ steps found, t.site.works.ts.records.look u.zone
            = ⟨.aborted, some .blSilent, r.hold, r.start, some (max s.now d % 4294967296), steps, found⟩
            ∧ ((r.findings.map Finding.act).Nodup →
              ∀ f ∈ r.findings, ∃ g ∈ found, g.act = f.act ∧ (f.kind = .fault → g.kind = .fault)))

/-- Decoding the body that spells a well-formed request gives that request back, for every request of R172 and every operand its
fields admit. -/
def Obligations.DecodingARequestsBodyGivesTheRequest : Prop :=
  ∀ (i : Instr) (p : Port) (body : List Byte), i.wf = true → encodeRequest i = some (p, body) →
    decodeRequest p body = some i

/-! ### Zones and the incident -/

/-- ALARM and RESTORE are refused BAD_ARGUMENT, ZONE_ABSENT and ZONE_NOT_PERMITTED in that order, and SET ZONE MODE BAD_ARGUMENT
and ZONE_ABSENT (R8, R10, R12). A malformed body is refused BAD_ARGUMENT whatever it carries (R171). -/
def Obligations.ZoneRequestsAreCheckedBeforeTheyAct : Prop :=
  ∀ (s : State) (l : Line) (n : Nat) (mode : ZoneMode), s.taking (.alarm l) = true → s.taking .ff = true →
    let p := Port.alarm l
    let refused (e : Reason) : Prop :=
      exec (.alarm p (.fields n)) s = .next ((s.supervise p).reply p (.error e))
        ∧ exec (.restore p (.fields n)) s = .next ((s.supervise p).reply p (.error e))
    let refusedFf (e : Reason) : Prop :=
      exec (.setZoneMode .ff (.fields ⟨n, mode⟩)) s = .next ((s.supervise .ff).reply .ff (.error e))
    exec (.alarm p .malformed) s = .next ((s.supervise p).reply p (.error .badArgument))
      ∧ exec (.restore p .malformed) s = .next ((s.supervise p).reply p (.error .badArgument))
      ∧ exec (.setZoneMode .ff .malformed) s = .next ((s.supervise .ff).reply .ff (.error .badArgument))
      ∧ (n = 0 ∨ 48 < n → refused .badArgument ∧ refusedFf .badArgument)
      ∧ (∀ z, zoneOfNumber n = some z → (s.site.ic.config z).present = false →
        refused .zoneAbsent ∧ refusedFf .zoneAbsent)
      ∧ (∀ z, zoneOfNumber n = some z → (s.site.ic.config z).present = true →
        (s.site.ic.config z).permitted.has l = false → refused .zoneNotPermitted)

/-- An accepted ALARM, once any test has been aborted and the line added to the zone's holders (R8): a NORMAL zone is admitted by
the three cases of R7, with incident start at plan memory and the demand lists in the first (R18), and begins its plan at step 1
(R20); a RESTORING one returns to ACTIVE with origin, rank and plan kept and the purge deadline discarded; LOCKED_OUT, ACTIVE and
HELD_OFF take the holder alone (R9). -/
def Obligations.AnAlarmActsByTheStateOfItsZone : Prop :=
  ∀ (s : State) (l : Line) (n : Nat) (z : ZoneId),
    let p := Port.alarm l
    let v := s.supervise p
    let x := (v.site.abortTest s.pmc .alarm).modZone z fun r => { r with holders := r.holders.add l }
    let ic := x.ic.nextRank
    let entered : Zone := { ic.zone z with state := .active, origin := some .alarm, rank := some ic.rank, purge := none }
    let begins (t : State) : Prop := ∃ c, t.site.works.ctx z = some c ∧ c.cls = .fire ∧ c.step = 1 ∧ c.outcomes = []
      ∧ c.plan = s.pmc.choosePlan (s.site.ic.config z).planBlock
    s.taking p = true → zoneOfNumber n = some z → (s.site.ic.config z).present = true →
    (s.site.ic.config z).permitted.has l = true →
    ((x.zone z).state = .normal → ∃ t, exec (.alarm p (.fields n)) s = .next t ∧ t.Accepted p
      ∧ (x.ic.fireOrder = [] → t.zone z = entered ∧ t.site.ic.fireOrder = [z] ∧ t.site.ic.rank = ic.rank
        ∧ (∀ y, y ≠ z → t.zone y = ic.zone y) ∧ t.site.ic.lockedOut = x.ic.lockedOut.filter (· != z)
        ∧ t.pmc = s.pmc.incidentStart s.now ∧ begins t
        ∧ ∀ a, ∀ e ∈ t.plant.demands.look a, e.orig ≠ .bl)
      ∧ (x.ic.fireOrder ≠ [] → x.ic.compatible z = true → t.zone z = entered ∧ z ∈ t.site.ic.fireOrder
        ∧ t.site.ic.rank = ic.rank ∧ (∀ y, y ≠ z → t.zone y = ic.zone y)
        ∧ t.site.ic.lockedOut = x.ic.lockedOut.filter (· != z) ∧ t.pmc = s.pmc ∧ begins t
        ∧ (x.ic.rank < Config.max32 → (∀ y ∈ x.ic.fireOrder, x.ic.rankOf y ≤ x.ic.rank) →
          t.site.ic.fireOrder = x.ic.fireOrder.filter (· != z) ++ [z]))
      ∧ (x.ic.fireOrder ≠ [] → x.ic.compatible z = false →
        t.zone z = { x.zone z with state := .lockedOut } ∧ t.site.ic.fireOrder = x.ic.fireOrder
        ∧ t.site.ic.lockedOut = x.ic.lockedOut.filter (· != z) ++ [z] ∧ t.site.ic.rank = x.ic.rank
        ∧ (∀ y, y ≠ z → t.zone y = x.zone y) ∧ t.site.works.px = x.works.px ∧ t.pmc = s.pmc))
      ∧ ((x.zone z).state = .restoring → exec (.alarm p (.fields n)) s = .next ({ v with
        site := (x.modZone z fun r => { r with state := .active, purge := none }).report .zoneState (some (.zone z))
          (some (.zone .active)) (some (.zoneCause .alarm)) }.reply p (.ok [])))
      ∧ ((x.zone z).state = .lockedOut ∨ (x.zone z).state = .active ∨ (x.zone z).state = .heldOff →
        exec (.alarm p (.fields n)) s = .next ({ v with site := x }.reply p (.ok [])))

/-- An accepted RESTORE removes the line from the zone's holders (R10). With holders left, or in a state that has none to lose,
nothing else changes; the last holder of an ACTIVE zone of origin ALARM begins its purge; a LOCKED_OUT zone becomes NORMAL and
leaves the locked-out list. A RESTORE aborts no test. -/
def Obligations.ARestoreRemovesTheHolderAndMayPurge : Prop :=
  ∀ (s : State) (l : Line) (n : Nat) (z : ZoneId),
    let p := Port.alarm l
    let v := s.supervise p
    let x := v.site.modZone z fun r => { r with holders := r.holders.remove l }
    let r := x.zone z
    s.taking p = true → zoneOfNumber n = some z → (s.site.ic.config z).present = true →
    (s.site.ic.config z).permitted.has l = true →
    (r.holders ≠ LineSet.empty ∨ (r.state = .active ∧ r.origin ≠ some .alarm) ∨ r.state = .heldOff ∨ r.state = .normal
        ∨ r.state = .restoring ∨ r.state = .testing →
      exec (.restore p (.fields n)) s = .next ({ v with site := x }.reply p (.ok [])))
      ∧ (r.holders = LineSet.empty → r.state = .active → r.origin = some .alarm →
        exec (.restore p (.fields n)) s = .next ({ v with
          site := (x.modZone z fun r => { r with
              state := .restoring, purge := some (s.now + (s.site.ic.config z).purgeTime * 1000) }).report .zoneState
            (some (.zone z)) (some (.zone .restoring)) (some (.zoneCause .restore)) }.reply p (.ok [])))
      ∧ (r.holders = LineSet.empty → r.state = .lockedOut → z ∉ x.ic.fireOrder →
        ∃ t, exec (.restore p (.fields n)) s = .next t ∧ t.Accepted p ∧ (t.zone z).state = .normal
          ∧ t.site.ic.lockedOut = x.ic.lockedOut.filter (· != z) ∧ t.site.ic.fireOrder = x.ic.fireOrder
          ∧ (∀ y, y ≠ z → t.zone y = x.zone y) ∧ t.pmc = s.pmc)

/-- SET ZONE MODE(z, EXTRACT) leaves z ACTIVE with origin FF in the fire order and out of the locked-out list, its purge deadline
discarded and, unless it was so already, with the next rank; a zone that was executing keeps its plan and its cursor and goes on;
an ACTIVE zone of origin FF is unchanged (R12, R13, R20). In an empty fire order it starts the incident, at plan memory and at the
demand lists, which hold no NORMAL entry any more (R18, R60). The rank is stated where the counter is 49 or more below its limit,
so that no renumbering comes between (R5). -/
def Obligations.ExtractPlacesTheZoneInTheFireOrder : Prop :=
  ∀ (s : State) (n : Nat) (z : ZoneId), s.ZonesConsistent →
    let v := s.supervise .ff
    let x := (v.site.abortTest s.pmc .ff).modZone z fun r => { r with ffMode := .extract }
    let r := x.zone z
    s.taking .ff = true → zoneOfNumber n = some z → (s.site.ic.config z).present = true →
    (r.state = .active → r.origin = some .ff →
      exec (.setZoneMode .ff (.fields ⟨n, .extract⟩)) s = .next ({ v with site := x }.reply .ff (.ok [])))
      ∧ ∃ t, exec (.setZoneMode .ff (.fields ⟨n, .extract⟩)) s = .next t ∧ t.Accepted .ff
        ∧ (t.zone z).state = .active ∧ (t.zone z).origin = some .ff ∧ (t.zone z).ffMode = .extract
        ∧ (t.zone z).holders = (s.zone z).holders ∧ (t.zone z).purge = none
        ∧ z ∈ t.site.ic.fireOrder ∧ z ∉ t.site.ic.lockedOut
        ∧ (¬ (r.state = .active ∧ r.origin = some .ff) → x.ic.rank + 49 ≤ Config.max32 →
          (t.zone z).rank = some (x.ic.rank + 1))
        ∧ (r.state = .active ∨ r.state = .restoring → ∃ c k, s.site.works.ctx z = some c ∧ t.site.works.ctx z = some k
          ∧ k.plan = c.plan ∧ k.cls = c.cls ∧ c.step ≤ k.step ∧ c.outcomes <+: k.outcomes)
        ∧ (r.state ≠ .active → r.state ≠ .restoring → ∃ k, t.site.works.ctx z = some k ∧ k.cls = .fire
          ∧ k.plan = s.pmc.choosePlan (s.site.ic.config z).planBlock)
        ∧ (x.ic.fireOrder = [] → t.pmc = s.pmc.incidentStart s.now ∧ ∀ a, ∀ e ∈ t.plant.demands.look a, e.orig ≠ .bl)
        ∧ (x.ic.fireOrder ≠ [] → t.pmc = s.pmc)

/-- SET ZONE MODE(z, OFF) makes z HELD_OFF from any state: out of the fire order and the locked-out list, holders kept, no longer
executing, its demands withdrawn from every list (R14, R42). OFF of the last zone of the fire order ends the incident and the rank
counter returns to 0; with zones locked out the first of them leads with rank 1, and nothing reaches plan memory (R17, R19). -/
def Obligations.OffHoldsTheZoneOutOfFireMode : Prop :=
  ∀ (s : State) (n : Nat) (z : ZoneId),
    let v := s.supervise .ff
    let x := (v.site.abortTest s.pmc .ff).modZone z fun r => { r with ffMode := .off }
    s.taking .ff = true → zoneOfNumber n = some z → (s.site.ic.config z).present = true →
    ((x.zone z).state = .heldOff →
      exec (.setZoneMode .ff (.fields ⟨n, .off⟩)) s = .next ({ v with site := x }.reply .ff (.ok [])))
      ∧ ((x.zone z).state ≠ .heldOff → ∃ t, exec (.setZoneMode .ff (.fields ⟨n, .off⟩)) s = .next t ∧ t.Accepted .ff
        ∧ t.zone z = ⟨.heldOff, (s.zone z).holders, .off, none, none, none⟩ ∧ z ∉ t.site.ic.fireOrder
        ∧ z ∉ t.site.ic.lockedOut ∧ t.site.works.ctx z = none
        ∧ (s.ZonesConsistent → s.DemandsRight → ∀ a, ∀ e ∈ t.plant.demands.look a, e.orig ≠ .zone z) ∧ t.pmc = s.pmc
        ∧ (s.site.ic.fireOrder = [z] → s.site.ic.lockedOut = [] → t.incident = false ∧ t.site.ic.rank = 0)
        ∧ (s.ZonesConsistent → s.site.ic.fireOrder = [z] → ∀ y rest, s.site.ic.lockedOut = y :: rest →
          t.site.ic.lead = some y ∧ (t.zone y).state = .active ∧ (t.zone y).origin = some .alarm ∧ (t.zone y).rank = some 1))

/-- SET ZONE MODE(z, AUTO) hands z back to its alarms (R15): a held-off zone without holders becomes NORMAL, one with holders is
admitted or locked out, and admission into an empty fire order is incident start at plan memory and at the demand lists (R18,
R60); an ACTIVE zone of origin FF takes origin ALARM, keeps its rank, its plan and its cursor, and begins its purge when it has no
holder; in the other states the mode alone is recorded. The rank is stated where the counter is 49 or more below its limit, so
that no renumbering comes between (R5). -/
def Obligations.AutoHandsTheZoneBackToItsAlarms : Prop :=
  ∀ (s : State) (n : Nat) (z : ZoneId), s.ZonesConsistent →
    let v := s.supervise .ff
    let x := (v.site.abortTest s.pmc .ff).modZone z fun r => { r with ffMode := .auto }
    let r := x.zone z
    s.taking .ff = true → zoneOfNumber n = some z → (s.site.ic.config z).present = true →
    ∃ t, exec (.setZoneMode .ff (.fields ⟨n, .auto⟩)) s = .next t ∧ t.Accepted .ff ∧ (t.zone z).ffMode = .auto
      ∧ (t.zone z).holders = (s.zone z).holders
      ∧ (r.state = .heldOff → r.holders = LineSet.empty → t.zone z = { r with state := .normal })
      ∧ (r.state = .heldOff → r.holders ≠ LineSet.empty → x.ic.fireOrder = [] ∨ x.ic.compatible z = true →
        (t.zone z).state = .active ∧ (t.zone z).origin = some .alarm ∧ z ∈ t.site.ic.fireOrder)
      ∧ (r.state = .heldOff → r.holders ≠ LineSet.empty → x.ic.fireOrder = [] →
        t.pmc = s.pmc.incidentStart s.now ∧ ∀ a, ∀ e ∈ t.plant.demands.look a, e.orig ≠ .bl)
      ∧ (r.state ≠ .heldOff ∨ r.holders = LineSet.empty ∨ x.ic.fireOrder ≠ [] → t.pmc = s.pmc)
      ∧ (r.state = .heldOff → r.holders ≠ LineSet.empty → x.ic.fireOrder ≠ [] → x.ic.compatible z = false →
        (t.zone z).state = .lockedOut ∧ t.site.ic.lockedOut = x.ic.lockedOut.filter (· != z) ++ [z])
      ∧ (r.state = .active → r.origin = some .ff → (t.zone z).origin = some .alarm ∧ z ∈ t.site.ic.fireOrder
        ∧ (r.holders ≠ LineSet.empty → (t.zone z).state = .active)
        ∧ (r.holders = LineSet.empty → (t.zone z).state = .restoring
          ∧ (t.zone z).purge = some (s.now + (s.site.ic.config z).purgeTime * 1000))
        ∧ (x.ic.rank + 49 ≤ Config.max32 → (t.zone z).rank = r.rank)
        ∧ ∃ c k, s.site.works.ctx z = some c ∧ t.site.works.ctx z = some k ∧ k.plan = c.plan ∧ k.cls = c.cls
          ∧ c.step ≤ k.step ∧ c.outcomes <+: k.outcomes)
      ∧ (r.state = .normal ∨ r.state = .lockedOut ∨ r.state = .restoring ∨ (r.state = .active ∧ r.origin ≠ some .ff) →
        t = { v with site := x }.reply .ff (.ok []))

/-- Purge expiry makes a RESTORING zone NORMAL and takes it out of the fire order with its origin, rank and deadline, and
withdraws its demands from every list (R42); a zone that was not the lead leaves the rest of the order as it stood; the last zone,
with none locked out, ends the incident and the rank counter returns to 0 (R11, R19, R20); with zones locked out the first of them
leads with rank 1 and the incident goes on (R17, R19). The Timebase then stands at least at the deadline: log entry 5, the model's
choice. -/
def Obligations.PurgeExpiryEndsTheZonesFireMode : Prop :=
  ∀ (s : State) (z : ZoneId) (d : Nat), s.mode = .running → (s.zone z).state = .restoring → (s.zone z).purge = some d →
    ∃ t, exec (.purgeExpiry z) s = .next t
      ∧ t.zone z = { s.zone z with state := .normal, origin := none, rank := none, purge := none }
      ∧ z ∉ t.site.ic.fireOrder ∧ t.site.works.ctx z = none ∧ t.now = max s.now d ∧ t.pmc = s.pmc
      ∧ (s.ZonesConsistent → s.DemandsRight → ∀ a, ∀ e ∈ t.plant.demands.look a, e.orig ≠ .zone z)
      ∧ (s.site.ic.lead ≠ some z → s.site.ic.fireOrder.filter (· != z) ≠ [] →
        t.site.ic.fireOrder = s.site.ic.fireOrder.filter (· != z)
        ∧ t.site.ic.lockedOut = s.site.ic.lockedOut.filter (· != z) ∧ ∀ y, y ≠ z → t.zone y = s.zone y)
      ∧ (s.site.ic.fireOrder = [z] → s.site.ic.lockedOut = [] → t.incident = false ∧ t.site.ic.rank = 0)
      ∧ (s.ZonesConsistent → s.site.ic.fireOrder = [z] → ∀ y rest, s.site.ic.lockedOut = y :: rest →
        t.site.ic.lead = some y ∧ (t.zone y).state = .active ∧ (t.zone y).origin = some .alarm ∧ (t.zone y).rank = some 1)

/-- To give a rank the counter is raised by 1; at its limit the zones of the fire order are renumbered first, which keeps the
relative order of every pair of them. Either way the rank given is larger than every rank already held (R5). When a re-evaluation
ends, every zone left in the locked-out list is incompatible with the lead zone, and the zones left keep their order (R17). Every
command that changes the lead brings re-evaluation: no zone is then left locked out that the new lead's set names (R16, R17). A
zone that a purge expiry or a SET ZONE MODE of another zone takes from the locked-out list is ACTIVE with origin ALARM in the fire
order, and stands in class FIRE at step 1 with no step ended (R17, R20). -/
def Obligations.RanksAndReEvaluationKeepTheirOrder : Prop :=
  (∀ ic : Incident, ic.fireOrder.Nodup → ic.rank ≤ Config.max32 → (∀ z ∈ ic.fireOrder, ic.rankOf z ≤ ic.rank) →
      ic.nextRank.rank ≤ Config.max32 ∧ ic.nextRank.fireOrder = ic.fireOrder
        ∧ (∀ z ∈ ic.fireOrder, ic.nextRank.rankOf z < ic.nextRank.rank)
        ∧ (ic.rank < Config.max32 → ic.nextRank = { ic with rank := ic.rank + 1 })
        ∧ (ic.rank = Config.max32 → ic.nextRank.rank = ic.fireOrder.length + 1
          ∧ ∀ y ∈ ic.fireOrder, ∀ z ∈ ic.fireOrder, ic.rankOf y < ic.rankOf z →
            ic.nextRank.rankOf y < ic.nextRank.rankOf z))
    ∧ (∀ (m : Pmc) (x : Site), x.ic.fireOrder.Nodup → x.ic.lockedOut.Nodup → x.ic.rank ≤ Config.max32 →
      (∀ z ∈ x.ic.fireOrder, x.ic.rankOf z ≤ x.ic.rank) → (∀ z ∈ x.ic.lockedOut, z ∉ x.ic.fireOrder) →
      let y := x.reEvaluate m
      (∀ z ∈ y.ic.lockedOut, y.ic.compatible z = false) ∧ y.ic.lockedOut.Sublist x.ic.lockedOut
        ∧ (x.ic.fireOrder ≠ [] → y.ic.lead = x.ic.lead))
    ∧ (∀ (i : Instr) (s t : State) (l : ZoneId), s.mode = .running → s.ZonesConsistent → exec i s = .next t →
      s.site.ic.lead ≠ some l → t.site.ic.lead = some l → ∀ z ∈ t.site.ic.lockedOut, z ∉ (t.site.ic.config l).compatible)
    ∧ ∀ (i : Instr) (s t : State) (y z : ZoneId), s.mode = .running → s.ZonesConsistent → exec i s = .next t →
      (i = .purgeExpiry y ∨ ∃ n mode, i = .setZoneMode .ff (.fields ⟨n, mode⟩) ∧ zoneOfNumber n = some y) → z ≠ y →
      z ∈ s.site.ic.lockedOut → z ∉ t.site.ic.lockedOut →
      (t.zone z).state = .active ∧ (t.zone z).origin = some .alarm ∧ z ∈ t.site.ic.fireOrder
        ∧ ∃ c, t.site.works.ctx z = some c ∧ c.cls = .fire ∧ c.step = 1 ∧ c.outcomes = []
          ∧ c.plan = s.pmc.choosePlan (s.site.ic.config z).planBlock

/-! ### Plan execution -/

/-- An entry fits a damper with OPEN or CLOSED and a fan with ON or OFF (R31). One that fits is posted for the zone in its class,
an ON speed below the fan's minimum raised to it (R32): the zone's own entry of the list is replaced in its place, another
originator's stays, and the entry joins the posted table, which keeps one record of an actuator in ascending number, and, with the
prove flag, the tail of the proof set (R29, R30, R52). One that does not fit, or names an UNASSIGNED channel, is ignored, counted
and reported (R31). -/
def Obligations.PostingAnEntryPlacesItsDemand : Prop :=
  ∀ (order : List ZoneId) (z : ZoneId) (k : Nat) (w : Works) (e : PlanEntry) (c : Ctx), w.ctx z = some c →
    let ch := w.plant.chans.look e.act
    let u := w.postEntry order z k e
    let old := w.plant.demands.look e.act
    let fits : Prop := (∃ d p, ch = .damper d ∧ e.pos = .damper p) ∨ ∃ f t, ch = .fan f ∧ e.pos = .fan t
    let raised (p : Position) : Prop := (∀ f v, ch = .fan f → e.pos = .fan (.on v) → p = .fan (.on (max f.cfg.minSpeed v)))
      ∧ ((∀ v, e.pos ≠ .fan (.on v)) → p = e.pos)
    (fits → ∀ p, raised p →
      let d : Demand := ⟨match c.cls with | .fire => .fire | .test => .test, .zone z, p⟩
      (∃ posted, u.ctx z = some { c with posted, proof := if e.prove then c.proof ++ [(e.act, p)] else c.proof }
        ∧ (∀ r, r ∈ posted ↔ r = (e.act, p) ∨ (r ∈ c.posted ∧ r.1 ≠ e.act))
        ∧ (c.posted.Pairwise (fun r q => r.1.val < q.1.val) → posted.Pairwise fun r q => r.1.val < q.1.val))
        ∧ d ∈ u.plant.demands.look e.act
        ∧ ((∃ q ∈ old, q.orig = .zone z) →
          u.plant.demands.look e.act = old.map fun q => if q.orig = .zone z then d else q)
        ∧ (∀ q, q.orig ≠ .zone z → (q ∈ u.plant.demands.look e.act ↔ q ∈ old))
        ∧ (∀ b, b ≠ e.act → u.plant.demands.look b = w.plant.demands.look b) ∧ ∀ y, y ≠ z → u.ctx y = w.ctx y)
      ∧ (¬ fits → u = (w.setCtx z (some { c with ignored := c.ignored + 1 })).report .planEntryIgnored (some (.zone z))
          (some (.step k)) (some (.actuator e.act)))

/-- On entering step k of its plan a zone stands at step k, SEQUENCING, with a fresh proof set; the entries of step record k, at
position k of the plan block, are posted in the order written; and the dwell and the step timeout run from this event with the
record's seconds (R29, R30, R173). `entries` are the entries that the record's bytes spell: actuator, position code, prove flag
and speed, five bytes each behind the entry count. What the posting of one entry does is stated above. -/
def Obligations.EnteringAStepPostsItsRecord : Prop :=
  ∀ (m : Pmc) (order : List ZoneId) (z : ZoneId) (k : Nat) (w : Works) (c : Ctx) (b : BlockId) (q : PosId)
    (entries : List PlanEntry),
    let byte (i : Nat) : Nat := (Memory.read m.mem (recordBase b q + i)).toNat
    let number (i : Nat) : Nat := byte i * 256 + byte (i + 1)
    let spells (i : Nat) (e : PlanEntry) : Prop :=
      byte (5 + 5 * i) = e.act.val + 1 ∧ (e.prove = true ↔ byte (7 + 5 * i) ≠ 0)
        ∧ ((byte (6 + 5 * i) = 0 ∧ e.pos = .damper .opened) ∨ (byte (6 + 5 * i) = 1 ∧ e.pos = .damper .closed)
          ∨ (byte (6 + 5 * i) = 2 ∧ e.pos = .fan .off) ∨ (byte (6 + 5 * i) = 3 ∧ e.pos = .fan (.on (number (8 + 5 * i)))))
    w.ctx z = some c → c.plan = .own b ∨ (c.plan = .fallback ∧ b = 0) → q.val = k → m.cond b q = .written →
    byte 4 ≤ 24 → entries.length = byte 4 → (∀ i e, entries[i]? = some e → spells i e) →
    let begun : Works := w.setCtx z (some { c with
      step := k, phase := .sequencing, proof := [], dwell := .stopped, timeout := none })
    let y := entries.foldl (fun v e => v.postEntry order z k e) begun
    ∃ d, y.ctx z = some d ∧ d.step = k ∧ d.phase = .sequencing ∧ d.plan = c.plan ∧ d.outcomes = c.outcomes
      ∧ w.enterStep m order z k = y.setCtx z (some { d with
        dwell := .running (w.plant.now + number 0 * 1000), timeout := some (w.plant.now + number 2 * 1000) })

/-- A zone that begins executing takes its own block if that is usable, otherwise block 0 if that is usable, otherwise no plan; a
block is usable when it is VALID and under no operation (R27). With a plan it enters step 1, SEQUENCING, in its class, with
nothing posted before and no step ended; the cases without its own block bring a PLAN_MISSING report in both queues, where they
have room. Without a plan it stands at step 1, ESTABLISHED, with nothing posted and no timer running, and nothing else changes
(R20, R28, R29). That the other zones judge after the whole posting of step 1 is log entry 8. -/
def Obligations.AZoneBeginsWithThePlanInUse : Prop :=
  ∀ (m : Pmc) (order : List ZoneId) (z : ZoneId) (cls : ExecClass) (own : Option BlockId) (w : Works),
    let u := w.begin m order z cls own
    let usable (b : BlockId) : Prop := (m.block b).state = .valid ∧ ∀ op, (∃ d, m.ctrl = .busy op d) ∨
      (∃ left, m.ctrl = .suspended op left) → op.target ≠ b
    let ownUsable : Prop := ∃ b, own = some b ∧ usable b
    let missing (b : Option NewState) (d : PlanMissing) : Report :=
      ⟨.planMissing, w.plant.now % 4294967296, some (.zone z), b, some (.planMissing d)⟩
    let joins (r : Report) (q p : ReportQueue) : Prop := q.reports.length < 32 → ∃ more, p.reports = q.reports ++ r :: more
    let steps (b : BlockId) : Nat := (byteAt (m.recordBytes b 0) 0).toNat
    let begun (plan : PlanInUse) (b : BlockId) : Works :=
      w.setCtx z (some ⟨plan, steps b, 1, .established, cls, [], [], .stopped, none, 0, []⟩)
    let sequencing (plan : PlanInUse) (b : BlockId) : Prop := ∃ c, u.ctx z = some c ∧ c.plan = plan ∧ c.cls = cls
      ∧ c.step = 1 ∧ c.phase = .sequencing ∧ c.outcomes = [] ∧ c.steps = steps b
      ∧ (∃ d, c.dwell = .running d) ∧ c.timeout.isSome = true
    (∀ b, own = some b → usable b → sequencing (.own b) b ∧ u = ((begun (.own b) b).enterStep m order z 1).settle m order)
      ∧ (¬ ownUsable → usable 0 → sequencing .fallback 0
        ∧ u = (((begun .fallback 0).report .planMissing (some (.zone z)) (some (.block 0))
          (some (.planMissing .fallback))).enterStep m order z 1).settle m order
        ∧ joins (missing (some (.block 0)) .fallback) w.plant.ffReports u.plant.ffReports
        ∧ joins (missing (some (.block 0)) .fallback) w.plant.blReports u.plant.blReports)
      ∧ (¬ ownUsable → ¬ usable 0 → w.plant.Settled →
        u = (w.setCtx z (some ⟨.none, 0, 1, .established, cls, [], [], .stopped, none, 0, []⟩)).report .planMissing
          (some (.zone z)) none (some (.planMissing .none)))

/-- Proof holds when every entry of the proof set is proven or contested: proven when the actuator is resolved to the entry's
position and stands there, contested when it is resolved to another, two ON positions being the same (R33). A dwell expiry ends a
step whose proof holds COMPLETE with its contested actuators, and a step whose proof does not hold goes on with its dwell expired
(R35, R39); a step timeout ends its step INCOMPLETE with its contested and its unproven actuators (R36). STEP_DONE or
STEP_INCOMPLETE with the step and the number joins both queues, where they have room (R44); then the zone enters the next step, or
after its last is ESTABLISHED, and a zone under test in its hold for the time taken with the request (R38, R121). The other zones
judge afterwards: log entry 8; an empty list of unproven actuators: log entry 34; at an expiry the Timebase stands at least at the
deadline: log entry 5; all three the model's choices. -/
def Obligations.AStepEndsByItsDwellOrItsTimeout : Prop :=
  (∀ (x : Plant) (c : Ctx),
      let resolved (a : ActId) : Option Position := match x.chans.look a, x.demands.look a with
        | .unassigned, _ => none
        | _, d :: _ => some d.pos
        | .damper d, [] => some (.damper d.cfg.rest)
        | .fan _, [] => some (.fan .off)
      let same (p q : Position) : Prop := p = q ∨ ∃ v r, p = .fan (.on v) ∧ q = .fan (.on r)
      let stands (a : ActId) (p : Position) : Prop := match x.chans.look a, p with
        | .damper d, .damper .opened => d.state = .atOpen
        | .damper d, .damper .closed => d.state = .atClosed
        | .fan f, .fan .off => f.state = .stopped
        | .fan f, .fan (.on _) => f.state = .running
        | _, _ => False
      let proven (e : ActId × Position) : Prop := ∃ p, resolved e.1 = some p ∧ same p e.2 ∧ stands e.1 e.2
      let contested (e : ActId × Position) : Prop := ∃ p, resolved e.1 = some p ∧ ¬ same p e.2
      (x.proofHolds c = true ↔ ∀ e ∈ c.proof, proven e ∨ contested e)
        ∧ (∀ keep : ActId × Position → Bool, (∀ e, keep e = true ↔ contested e) →
          x.contestedActs c = (c.proof.filter keep).map Prod.fst)
        ∧ ∀ keep : ActId × Position → Bool, (∀ e, keep e = true ↔ ¬ proven e ∧ ¬ contested e) →
          x.unprovenActs c = (c.proof.filter keep).map Prod.fst)
    ∧ ∀ (s : State) (z : ZoneId) (c : Ctx), s.mode = .running → s.site.works.ctx z = some c → c.plan.block.isSome = true →
      let m := s.pmc
      let order := s.site.ic.fireOrder
      let contested := s.plant.contestedActs c
      let unproven := s.plant.unprovenActs c
      let reached (d : Nat) : Works := { s.site.works with plant := s.plant.reach d }
      let ends (d : Nat) (o : StepOutcome) (kind : ReportKind) (n : Nat) (t : State) : Prop :=
        let ended : Ctx := { c with dwell := .stopped, timeout := none, outcomes := c.outcomes ++ [o] }
        let last : Ctx := { ended with phase := .established, proof := [] }
        let done (c : Ctx) : Works :=
          ((reached d).setCtx z (some c)).report kind (some (.zone z)) (some (.step c.step)) (some (.count n))
        let report : Report := ⟨kind, max s.now d % 4294967296, some (.zone z), some (.step c.step), some (.count n)⟩
        let joins (q r : ReportQueue) : Prop := q.reports.length < 32 → ∃ more, r.reports = q.reports ++ report :: more
        t.now = max s.now d ∧ t.site.ic = s.site.ic ∧ t.pmc = m ∧ t.ports = s.ports
          ∧ joins s.plant.ffReports t.plant.ffReports ∧ joins s.plant.blReports t.plant.blReports
          ∧ (c.step < c.steps → t.site.works = ((done ended).enterStep m order z (c.step + 1)).settle m order
            ∧ ∃ k, t.site.works.ctx z = some k ∧ k.step = c.step + 1 ∧ k.phase = .sequencing ∧ k.outcomes = ended.outcomes)
          ∧ (c.steps ≤ c.step → t.site.works.ctx z = some last
            ∧ (∀ u, s.site.works.ts.test = some u → u.zone ≠ z → t.site.works = (done last).settle m order)
            ∧ (s.site.works.ts.test = none → t.site.works = (done last).settle m order)
            ∧ ∀ u, s.site.works.ts.test = some u → u.zone = z →
              t.site.works.ts.test = some ⟨z, u.hold, .hold (max s.now d + u.hold * 1000)⟩)
      (∀ d, c.dwell = .running d → c.phase = .sequencing → ∃ t, exec (.dwellExpiry z) s = .next t
          ∧ (s.plant.proofHolds c = true → ends d ⟨.complete, contested, []⟩ .stepDone contested.length t)
          ∧ (s.plant.proofHolds c = false → s.plant.Settled →
            t.site.works = (reached d).setCtx z (some { c with dwell := .expired }) ∧ t.pmc = m ∧ t.site.ic = s.site.ic))
        ∧ ∀ d, c.timeout = some d → ∃ t, exec (.stepTimeoutExpiry z) s = .next t
          ∧ ends d ⟨.incomplete, contested, unproven⟩ .stepIncomplete unproven.length t

/-- What a change of a channel or of a resolved demand calls for (R34, R51). A zone whose dwell has expired, whose proof set holds
a changed channel, and whose proof holds when its turn comes, ends its step COMPLETE with its contested actuators, brings
STEP_DONE, the first report of the turns, to both queues where they have room, and enters its next step or is ESTABLISHED (R35,
R38, R44); before its dwell expires, and once it is ESTABLISHED, a zone's context stays as it is. The turns go by the fire order,
then the zone under test; the clause speaks of a zone ahead of which no zone is called to judge. That the changes of one event
wait in a list of the model's own is log entry 8. -/
def Obligations.AChangeThatMakesProofHoldEndsTheStep : Prop :=
  (∀ (s : State) (g : Plant → Plant),
      s.onPlant g = { s with site := { s.site with works :=
        ({ s.site.works with plant := g s.site.works.plant } : Works).settle s.pmc s.site.ic.fireOrder } })
    ∧ ∀ (m : Pmc) (order : List ZoneId) (w : Works) (z : ZoneId) (c : Ctx), w.ctx z = some c →
      let u := w.settle m order
      let under := match w.ts.test with
        | some k => [k.zone]
        | none => []
      ((∃ d, c.dwell = .running d) ∨ c.phase = .established → u.ctx z = some c)
        ∧ (c.phase = .sequencing → c.dwell = .expired → c.plan.block.isSome = true → w.plant.proofHolds c = true →
          (∃ e ∈ c.proof, e.1 ∈ w.plant.pxDue) →
          (∃ front back, order ++ under = front ++ z :: back ∧
            ∀ y ∈ front, ∀ k, w.ctx y = some k → ∀ e ∈ k.proof, e.1 ∉ w.plant.pxDue) →
          let contested := w.plant.contestedActs c
          let ended : Ctx := { c with
            dwell := .stopped, timeout := none, outcomes := c.outcomes ++ [⟨.complete, contested, []⟩] }
          let done := (w.setCtx z (some ended)).report .stepDone (some (.zone z)) (some (.step c.step))
            (some (.count contested.length))
          let report : Report := ⟨.stepDone, w.plant.now % 4294967296, some (.zone z), some (.step c.step),
            some (.count contested.length)⟩
          let joins (q r : ReportQueue) : Prop := q.reports.length < 32 → ∃ more, r.reports = q.reports ++ report :: more
          joins w.plant.ffReports u.plant.ffReports ∧ joins w.plant.blReports u.plant.blReports
            ∧ (c.step < c.steps → u.ctx z = (done.enterStep m order z (c.step + 1)).ctx z
              ∧ ∃ k, u.ctx z = some k ∧ k.step = c.step + 1 ∧ k.phase = .sequencing ∧ k.outcomes = ended.outcomes)
            ∧ (c.steps ≤ c.step → u.ctx z = some { ended with phase := .established, proof := [] }))

/-! ### Demands and targets -/

/-- The speed sent with ON is brought into range: 0 is OFF, up to the minimum the minimum, up to 1000 as sent, above 1000 at 1000
(R54); a setting that does not fit its channel's kind, or names an UNASSIGNED channel, is refused BAD_ARGUMENT on FF and on BL,
and so are a number outside 1 to 64 and a malformed body (R55, R58). OPEN and CLOSED ask a damper for their position, OFF a fan
for OFF and ON for the speed so ranged; AUTO and NONE ask for the removal. An accepted SET OVERRIDE puts its MANUAL entry at the
head of the actuator's list, or in the place of the one there; AUTO removes it (R56). An accepted SET NORMAL puts its NORMAL entry
at the tail, or in the place of the one there; NONE removes it; during an incident it is refused FIRE_MODE (R58, R59). The other
lists stay as they were. -/
def Obligations.OverridesAndNormalsPlaceTheirEntries : Prop :=
  (∀ m n : Nat, 1 ≤ m → m ≤ 1000 →
      (n = 0 → rangedOn m n = .off) ∧ (1 ≤ n → n ≤ m → rangedOn m n = .on m)
        ∧ (m < n → n ≤ 1000 → rangedOn m n = .on n) ∧ (1000 < n → rangedOn m n = .on 1000))
    ∧ (∀ (s : State) (n speed : Nat) (a : ActId) (st : Setting), s.taking .ff = true → s.taking .bl = true →
      actOfNumber n = some a →
      (s.plant.chans.look a = .unassigned
        ∨ (∃ d, s.plant.chans.look a = .damper d ∧ (st = .on ∨ st = .off))
        ∨ (∃ f, s.plant.chans.look a = .fan f ∧ (st = .opened ∨ st = .closed))) →
      exec (.setOverride .ff (.fields ⟨n, st, speed⟩)) s = .next ((s.supervise .ff).reply .ff (.error .badArgument))
        ∧ exec (.setNormal .bl (.fields ⟨n, st, speed⟩)) s = .next ((s.supervise .bl).reply .bl (.error .badArgument)))
    ∧ (∀ s : State,
      let refusedFf (b : Body SettingArgs) : Prop :=
        exec (.setOverride .ff b) s = .next ((s.supervise .ff).reply .ff (.error .badArgument))
      let refusedBl (b : Body SettingArgs) : Prop :=
        exec (.setNormal .bl b) s = .next ((s.supervise .bl).reply .bl (.error .badArgument))
      (s.taking .ff = true → refusedFf .malformed ∧ ∀ n st speed, n = 0 ∨ 64 < n → refusedFf (.fields ⟨n, st, speed⟩))
        ∧ (s.taking .bl = true → refusedBl .malformed ∧ ∀ n st speed, n = 0 ∨ 64 < n → refusedBl (.fields ⟨n, st, speed⟩)))
    ∧ ∀ (s : State) (n speed : Nat) (a : ActId) (st : Setting) (q : Option Position), actOfNumber n = some a →
      -- The position that the setting places, or none where it takes the entry out.
      (match s.plant.chans.look a, st with
        | .unassigned, _ => False
        | _, .release => q = none
        | .damper _, .opened => q = some (.damper .opened)
        | .damper _, .closed => q = some (.damper .closed)
        | .fan _, .off => q = some (.fan .off)
        | .fan f, .on => q = some (.fan (rangedOn f.cfg.minSpeed speed))
        | _, _ => False) →
      let old := s.plant.demands.look a
      let asks (order : List ZoneId) (cls : DemandClass) (o : Originator) (x : Plant) : Plant := match q with
        | some p => x.post order a ⟨cls, o, p⟩
        | none => x.drop o a
      (s.taking .ff = true →
        let v := s.supervise .ff
        let y := asks s.site.ic.fireOrder .manual .ff v.plant
        exec (.setOverride .ff (.fields ⟨n, st, speed⟩)) s
            = .next ((v.onPlant (asks s.site.ic.fireOrder .manual .ff)).reply .ff (.ok []))
          ∧ (∀ b, b ≠ a → y.demands.look b = s.plant.demands.look b)
          ∧ (q = none → y.demands.look a = old.filter fun e => e.orig != .ff)
          ∧ (∀ p rest, q = some p → (∀ e ∈ rest, e.orig ≠ .ff) → (∃ e, e.orig = .ff ∧ old = e :: rest) ∨
              (old = rest ∧ ∀ e ∈ rest, e.cls ≠ .manual) → y.demands.look a = ⟨.manual, .ff, p⟩ :: rest))
        ∧ (s.taking .bl = true →
          let v := s.supervise .bl
          let y := asks [] .normal .bl v.plant
          (s.incident = true →
            exec (.setNormal .bl (.fields ⟨n, st, speed⟩)) s = .next (v.reply .bl (.error .fireMode)))
            ∧ (s.incident = false →
              exec (.setNormal .bl (.fields ⟨n, st, speed⟩)) s
                  = .next ((v.onPlant (asks [] .normal .bl)).reply .bl (.ok []))
                ∧ (∀ b, b ≠ a → y.demands.look b = s.plant.demands.look b)
                ∧ (q = none → y.demands.look a = old.filter fun e => e.orig != .bl)
                ∧ (∀ p front, q = some p → (∀ e ∈ front, e.orig ≠ .bl) →
                    (old = front ∨ ∃ e, e.orig = .bl ∧ old = front ++ [e]) →
                    y.demands.look a = front ++ [⟨.normal, .bl, p⟩])))

/-- What a damper does when the head of its demand list changes (R48, R49, R69), for a damper whose target is its resolved demand.
A new target is reported, where the queue has room, sets the drive by R65, and acts by the state: from either end the damper
travels; from travel or TRAVEL_FAULT it arrives at once if it is at the new end, and otherwise travels afresh; in SWITCH_FAULT the
target is held. The same position leaves the record as it was. No other damper changes, and no statistics. -/
def Obligations.ADamperFollowsItsTarget : Prop :=
  ∀ (x : Plant) (a : ActId) (d : Damper) (l : List Demand) (old new : Resolved) (p : DamperPos),
    x.chans.look a = .damper d → x.resolved a = some old → old.pos = .damper d.target →
    (l = [] → new = ⟨.damper d.cfg.rest, .rest, none⟩) → (∀ e r, l = e :: r → new = ⟨e.pos, e.cls.resolved, some e.orig⟩) →
    new.pos = .damper p →
    let y := x.setDemands a l
    let e : Damper := { d with target := p, drive := p != d.cfg.fail }
    let i := x.inputs.look a
    let cond := switchCond i.first.debounced i.second.debounced
    let becomes (e : Damper) : Prop := y.chans.look a = .damper e
    let stands : Damper := { e with state := p.atState, timer := none, cause := none, captureStart := none }
    let travelling : Damper :=
      { e with
        state := p.travelState, timer := some (x.now + d.cfg.travelLimit * 1000), cause := some .command
        captureStart := some x.now }
    let moving : Prop := d.state = .opening ∨ d.state = .closing ∨ d.state = .travelFault
    y.demands.look a = l ∧ (∀ b, b ≠ a → y.demands.look b = x.demands.look b) ∧ y.stats = x.stats ∧ y.inputs = x.inputs
      ∧ y.now = x.now
      ∧ (∀ b c, b ≠ a → x.chans.look b = .damper c → y.chans.look b = .damper c)
      ∧ (p = d.target → becomes d)
      ∧ (p ≠ d.target → d.state = .atOpen ∨ d.state = .atClosed → becomes travelling)
      ∧ (p ≠ d.target → moving → cond = p.endCond → becomes stands)
      ∧ (p ≠ d.target → moving → cond ≠ p.endCond → becomes travelling)
      ∧ (p ≠ d.target → d.state = .switchFault → becomes e)
      ∧ (p ≠ d.target → x.ffReports.reports.length < 32 → ∃ zone more, y.ffReports.reports = x.ffReports.reports
        ++ ⟨.actuatorTarget, x.now % 4294967296, some (.actuator a), some (.target (.damper p)), some (.cls new.cls zone)⟩ :: more)

/-- What a fan does when the head of its demand list changes (R48, R49, R86), for a fan whose target and class are its resolved
demand's; a fan whose target is OFF stands STOPPED or stopping and holds no requeue note (R86, R96). Target and class are taken in
every state. From STOPPED a target of ON takes the start path: WAIT_INTERLOCK, or with its path open WAIT_PERMIT and the tail of
the start queue, with cause SHED for a fan that holds a requeue note, where the stagger timer still runs. A target of OFF makes a
waiting fan STOPPED, and an energized one STOPPING with cause COMMAND, or STOPPED at once without proof (R92). A stopping fan
holds its target, the requeue note dropped with OFF. -/
def Obligations.AFanFollowsItsTarget : Prop :=
  ∀ (x : Plant) (a : ActId) (f : Fan) (l : List Demand) (old new : Resolved) (t : FanTarget),
    x.chans.look a = .fan f → x.resolved a = some old → old.pos = .fan f.target → old.cls = f.cls →
    (l = [] → new = ⟨.fan .off, .rest, none⟩) → (∀ e r, l = e :: r → new = ⟨e.pos, e.cls.resolved, some e.orig⟩) →
    new.pos = .fan t →
    (f.target = .off → f.requeue = false ∧ (f.state = .stopped ∨ f.state = .stopping ∨ f.state = .stopFault)) →
    let y := x.setDemands a l
    let g : Fan := { f with target := t, cls := new.cls, requeue := f.requeue && t != .off }
    let becomes (g : Fan) : Prop := y.chans.look a = .fan g
    let energized : Prop := f.state = .starting ∨ f.state = .running ∨ f.state = .runFault
    let crosses : Prop := (new.cls = .manual) ≠ (f.cls = .manual)
    let free : Prop := ∀ k, f.cfg.group = some k → (x.groups.look k).velocity = 0
    let out : Fan :=
      { g with run := false, present := 0, applied := 0, proofTimer := none, faultCause := none }
    (∃ h, y.chans.look a = .fan h ∧ h.target = t ∧ h.cls = new.cls ∧ h.cfg = f.cfg)
      ∧ (f.state = .stopped → f.target = .off → t ≠ .off → x.pathOpen f = false →
        becomes { g with state := .waitInterlock } ∧ y.queue = x.queue)
      ∧ (f.state = .stopped → f.target = .off → t ≠ .off → x.pathOpen f = true → x.stagger.isSome = true →
        becomes { g with state := .waitPermit }
        ∧ y.queue = x.queue.filter (fun q => q.fan != a) ++ [⟨a, x.now, if f.requeue then .shed else .new⟩])
      ∧ (f.state = .waitInterlock → becomes { g with state := if t = .off then .stopped else .waitInterlock })
      ∧ (f.state = .waitPermit → t = .off →
        becomes { g with state := .stopped } ∧ y.queue = x.queue.filter fun q => q.fan != a)
      ∧ (f.state = .waitPermit → t ≠ .off → new.cls = f.cls → becomes g ∧ y.queue = x.queue)
      ∧ (energized → t = .off → x.proofPresent a = true → becomes { out with
        state := .stopping, stopCause := some .command, runDownTimer := some (x.now + f.cfg.runDown * 1000) })
      ∧ (energized → t = .off → x.proofPresent a = false →
        becomes { out with state := .stopped, stopCause := none, runDownTimer := none })
      ∧ (energized → t ≠ .off → t = f.target → ¬ crosses → becomes g)
      ∧ (energized → t ≠ .off → t ≠ f.target ∨ crosses → free → becomes { g with applied := t.speed })
      ∧ (f.state = .stopping ∨ f.state = .stopFault → becomes g)

/-! ### Channels -/

/-- CLEAR FAULT restarts a damper in TRAVEL_FAULT (R76) and a fan in RUN_FAULT or STOP_FAULT (R93); in every other state it is
ACCEPTED and has no effect. An actuator number out of range, an UNASSIGNED channel or a malformed body is refused BAD_ARGUMENT
(R171). -/
def Obligations.ClearFaultRestartsAFaultedChannel : Prop :=
  ∀ (s : State) (n : Nat), s.taking .ff = true →
    let v := s.supervise .ff
    let done (g : Plant → Plant) : Prop :=
      exec (.clearFault .ff (.fields n)) s = .next ((v.onPlant g).reply .ff (.ok []))
    let refused : Prop := exec (.clearFault .ff (.fields n)) s = .next (v.reply .ff (.error .badArgument))
    (n = 0 ∨ 64 < n → refused)
      ∧ exec (.clearFault .ff .malformed) s = .next (v.reply .ff (.error .badArgument))
      ∧ ∀ a, actOfNumber n = some a →
        let ch := s.plant.chans.look a
        (ch = .unassigned → refused)
          ∧ (∀ d, ch = .damper d → d.state = .travelFault →
            let e : Damper :=
              { d with state := d.target.travelState, timer := some (s.now + d.cfg.travelLimit * 1000) }
            done fun x => ((x.setChan a (.damper e)).report .damperState (some (.actuator a)) (some (.damper e.state))
              (some (.damperCause .clear))).handPx a)
          ∧ (∀ d, ch = .damper d → d.state ≠ .travelFault → done fun x => x)
          ∧ (∀ f, ch = .fan f → f.state = .runFault →
            let g : Fan :=
              { f with
                state := .starting, faultCause := none, present := f.cfg.minSpeed
                proofTimer := some (s.now + f.cfg.proofTime * 1000) }
            done fun x => ((x.setChan a (.fan g)).handPx a).report .fanState (some (.actuator a)) (some (.fan .starting))
              (some (.fanCause .clear)))
          ∧ (∀ f, ch = .fan f → f.state = .stopFault →
            let g : Fan := { f with state := .stopping, runDownTimer := some (s.now + f.cfg.runDown * 1000) }
            done fun x => ((x.setChan a (.fan g)).handPx a).report .fanState (some (.actuator a)) (some (.fan .stopping))
              (some (.fanCause .clear)))
          ∧ (∀ f, ch = .fan f → f.state ≠ .runFault → f.state ≠ .stopFault → done fun x => x)

/-- What a damper does at a switch change, by its state and the new switch condition (R70 to R73, R75), with the capture of a
commanded travel (R78), and at the expiry of its travel timer (R74). A switch that does not change keeps its own samples (R66).
Marked as the model's choices: that a pair held already changes nothing, and that the Timebase then stands at the deadline or
later (log entry 5); the pin of a switch that changes (log entry 7). -/
def Obligations.ADamperFollowsItsSwitchesAndItsTimer : Prop :=
  ∀ (s : State) (a : ActId) (d : Damper), s.mode = .running → s.plant.chans.look a = .damper d →
    let x := s.plant
    let i := x.inputs.look a
    (∀ o c : Bool,
      let y := x.switchChange a o c
      let cond := switchCond o c
      let travels : Prop := d.state = .opening ∨ d.state = .closing ∨ d.state = .travelFault
      let standing : Prop := d.state = .atOpen ∨ d.state = .atClosed
      let becomes (e : Damper) : Prop := y.chans.look a = .damper e
      let stands : Damper := { d with state := d.target.atState, timer := none, cause := none, captureStart := none }
      let travelling (c : TravelCause) : Damper :=
        { d with
          state := d.target.travelState, timer := some (x.now + d.cfg.travelLimit * 1000), cause := some c
          captureStart := none }
      exec (.switchChange a o c) s = .next (s.onPlant fun x => x.switchChange a o c)
        ∧ (o = i.first.debounced → c = i.second.debounced → y = x)
        ∧ (¬ (o = i.first.debounced ∧ c = i.second.debounced) →
          y.inputs.look a = ⟨i.first.follow o, i.second.follow c⟩
          ∧ (y.inputs.look a).first.debounced = o ∧ (y.inputs.look a).second.debounced = c
          ∧ (o = i.first.debounced → (y.inputs.look a).first = i.first)
          ∧ (c = i.second.debounced → (y.inputs.look a).second = i.second)
          ∧ (travels → cond = d.target.endCond → becomes stands)
          ∧ (travels → cond = d.target.endCond → d.cause ≠ some .command → y.stats = x.stats)
          ∧ (∀ start, travels → cond = d.target.endCond → d.cause = some .command → d.captureStart = some start →
            let t := max 1 (x.now - start)
            let old := x.stats.look a
            let new := y.stats.look a
            new.count = min 65535 (old.count + 1) ∧ (new.slow = true ↔ 3 * (d.cfg.travelLimit * 1000) < 4 * t)
              ∧ (t ≤ Config.max32 → new.last = some t)
              ∧ (t ≤ Config.max32 → old.average = none → new.average = some t)
              ∧ (∀ avg, t ≤ Config.max32 → old.average = some avg →
                ∃ n, new.average = some n ∧ (n : Int) = avg + Int.tdiv ((t : Int) - avg) 4))
          ∧ (travels → cond ≠ d.target.endCond → cond ≠ .contradictory → y = x.setSwitches a o c)
          ∧ (travels ∨ standing → cond = .contradictory →
            becomes { d with state := .switchFault, timer := none, cause := none, captureStart := none })
          ∧ (standing → cond ≠ d.target.endCond → cond ≠ .contradictory → becomes (travelling .drift))
          ∧ (d.state = .switchFault → cond = d.target.endCond → becomes stands ∧ y.stats = x.stats)
          ∧ (d.state = .switchFault → cond ≠ d.target.endCond → cond ≠ .contradictory → becomes (travelling .switchClear))
          ∧ (d.state = .switchFault → cond = .contradictory → y = x.setSwitches a o c)))
      ∧ ∀ t, d.timer = some t → d.state = .opening ∨ d.state = .closing →
        exec (.travelTimerExpiry a) s = .next (s.onPlant fun x =>
          ((((x.reach t).setChan a (.damper { d with state := .travelFault, timer := none })).report .travelFault
            (some (.actuator a)) (some (.damper .travelFault)) (d.cause.map .travelCause)).handPx a).handTs (.fault a))

/-- What a fan does when its proof arrives or is lost, by its state (R90 to R92), at the expiry of its proof timer (R90) and of
its run-down timer (R92), and at a slew update (R94); a speed reference takes its staged duty within 2 ms (R84). Marked as the
model's choices: that the 2 ms periods are counted from Timebase 0 (log entry 6) and that the staged duty is the present speed
(log entry 29); that a proof already present or absent changes nothing, and that the Timebase then stands at the deadline or later
(log entry 5); the pin that a proof change sets (log entry 7). -/
def Obligations.AFanFollowsItsProofAndItsTimers : Prop :=
  ∀ (s : State) (a : ActId) (f : Fan), s.mode = .running → s.plant.chans.look a = .fan f →
    let present := (s.plant.inputs.look a).first.debounced
    let becomes (x : Plant) (g : Fan) (c : FanCause) : Plant := ((x.setChan a (.fan g)).handPx a).reportFan a g.state c
    let fails (x : Plant) (g : Fan) (c : FanCause) : Plant :=
      (((x.setChan a (.fan g)).handPx a).handTs (.fault a)).reportFan a g.state c
    let stops : Prop := f.state = .stopping ∨ f.state = .stopFault
    let starts : Prop := f.state = .starting ∨ f.state = .runFault
    let halted : Fan := { f with state := .stopped, runDownTimer := none, stopCause := none }
    -- The speed reference has taken its staged duty where the Timebase has passed the start of a 2 ms period.
    let later (t : Nat) (h : Fan) : Prop :=
      h = { f with duty := if s.now / 2 < max s.now t / 2 then f.present else f.duty }
    (present = true → exec (.proofArrives a) s = .next (s.onPlant fun x => x))
      ∧ (present = false → starts → exec (.proofArrives a) s = .next (s.onPlant fun x =>
        becomes (x.setProof a true) { f with state := .running, proofTimer := none, faultCause := none } .proof))
      ∧ (present = false → ¬ starts → exec (.proofArrives a) s = .next (s.onPlant fun x => x.setProof a true))
      ∧ (present = false → exec (.proofLost a) s = .next (s.onPlant fun x => x))
      ∧ (present = true → f.state = .running → exec (.proofLost a) s = .next (s.onPlant fun x =>
        fails (x.setProof a false) { f with state := .runFault, faultCause := some .proofLost } .proofLost))
      ∧ (present = true → stops → f.target = .off → exec (.proofLost a) s = .next (s.onPlant fun x =>
        becomes (x.setProof a false) halted .stopped))
      ∧ (present = true → stops → f.target ≠ .off → s.plant.pathOpen f = false →
        exec (.proofLost a) s = .next (s.onPlant fun x =>
          becomes (becomes (x.setProof a false) halted .stopped) { halted with state := .waitInterlock } .command))
      ∧ (present = true → stops → f.target ≠ .off → s.plant.pathOpen f = true →
        exec (.proofLost a) s = .next (s.onPlant fun x =>
          ((becomes (becomes (x.setProof a false) halted .stopped) { halted with state := .waitPermit } .command).joinQueue
            a).walk))
      ∧ (present = true → f.state ≠ .running → ¬ stops → exec (.proofLost a) s = .next (s.onPlant fun x => x.setProof a false))
      ∧ (∀ t h, f.state = .starting → f.proofTimer = some t → later t h →
        exec (.proofTimerExpiry a) s = .next (s.onPlant fun x => fails (x.reach t) { h with
          state := .runFault, proofTimer := none, faultCause := some .noProof } .noProof))
      ∧ (∀ t h, f.state = .stopping → f.runDownTimer = some t → later t h →
        exec (.runDownExpiry a) s = .next (s.onPlant fun x => fails (x.reach t) { h with
          state := .stopFault, runDownTimer := none } .runDown))
      ∧ ∃ chans, exec .slewUpdate s = .next (s.onPlant fun x => { x with chans := chans })
        ∧ (f.state = .running → f.present ≤ f.applied →
          chans.look a = .fan { f with present := min f.applied (f.present + f.cfg.slewRate / 10) })
        ∧ (f.state = .running → f.applied ≤ f.present →
          chans.look a = .fan { f with present := max f.applied (f.present - f.cfg.slewRate / 10) })
        ∧ (f.state ≠ .running → chans.look a = .fan f)
        ∧ ∀ b d, s.plant.chans.look b = .damper d → chans.look b = .damper d

/-- The duct interlock. A damper that enters AT_OPEN is handed to the fans whose path lists name it, in ascending number, and so
is one that leaves it; the group of an inlet is evaluated after them (R79, R105). With its whole path open a fan in WAIT_INTERLOCK
becomes WAIT_PERMIT and joins the queue's tail, where the stagger timer still runs, and any other fan stays as it was (R87). With
its path broken an energized fan is tripped with cause INTERLOCK; without proof it stops at once, and waits for its interlock if
its target is ON; a fan in WAIT_PERMIT leaves the queue for WAIT_INTERLOCK; any other stays (R88, R92). -/
def Obligations.TheInterlockStartsAndStopsFans : Prop :=
  (∀ (x : Plant) (a : ActId) (was is : DamperState) (cfg : DamperCfg),
      let through := allActs.filter fun b => match x.chans.look b with
        | .fan f => f.cfg.path.contains a
        | _ => false
      let made := through.foldl (fun y b => y.pathMade b) x
      let broken := through.foldl (fun y b => y.pathBroken b a) x
      let y := x.handOpenness a was is cfg
      (was ≠ .atOpen → is ≠ .atOpen → y = x) ∧ (was = .atOpen → is = .atOpen → y = x)
        ∧ (was ≠ .atOpen → is = .atOpen → cfg.role = .path → y = made)
        ∧ (was = .atOpen → is ≠ .atOpen → cfg.role = .path → y = broken)
        ∧ (∀ g, was ≠ .atOpen → is = .atOpen → cfg.role = .inlet → cfg.group = some g → y = made.evaluate Plant.walk g)
        ∧ (∀ g, was = .atOpen → is ≠ .atOpen → cfg.role = .inlet → cfg.group = some g → y = broken.evaluate Plant.walk g))
    ∧ ∀ (x : Plant) (a d : ActId) (f : Fan), x.chans.look a = .fan f →
      let made := x.pathMade a
      let cut := x.pathBroken a d
      let out : Fan :=
        { f with
          run := false, present := 0, applied := 0, proofTimer := none, faultCause := none, stopCause := none
          runDownTimer := none }
      let energized : Prop := f.state = .starting ∨ f.state = .running ∨ f.state = .runFault
      (f.state = .waitInterlock → x.pathOpen f = true → x.stagger.isSome = true →
        made.chans.look a = .fan { f with state := .waitPermit }
        ∧ made.queue = x.queue.filter (fun q => q.fan != a) ++ [⟨a, x.now, if f.requeue then .shed else .new⟩])
        ∧ (f.state ≠ .waitInterlock ∨ x.pathOpen f = false → made = x)
        ∧ (x.pathOpen f = false →
          (energized → x.proofPresent a = true → cut.chans.look a = .fan { out with
            state := .stopping, stopCause := some .interlock, runDownTimer := some (x.now + f.cfg.runDown * 1000) })
          ∧ (energized → x.proofPresent a = false → cut.chans.look a = .fan { out with
            state := if f.target = .off then .stopped else .waitInterlock })
          ∧ (f.state = .waitPermit → cut.chans.look a = .fan { f with state := .waitInterlock }
            ∧ cut.queue = x.queue.filter fun q => q.fan != a)
          ∧ (¬ energized → f.state ≠ .waitPermit → cut = x))

/-- The expiry of the stagger timer makes the walk of the start queue (R99): the first admissible fan in WAIT_PERMIT with its path
open (R88) takes the permit, leaves the queue and becomes STARTING at its minimum speed, or RUNNING where its proof is present,
and the timer starts afresh (R89); no other fan takes one. A queued scaled fan of a checked group is admissible where its minimum
flow and the margin fit (R112), and a MANUAL fan, a fan of no group and a fan of an unchecked group always are (R99, R104); the
grant of a fan that is no MANUAL fan of a checked group sheds no fan and changes at most the applied speeds of the others; outside
the check the applied speed is the demanded one (R95). The Timebase then stands at least at the deadline: log entry 5, the model's
choice. -/
def Obligations.AnExpiredStaggerGrantsTheFirstAdmissibleFan : Prop :=
  ∀ (s : State) (d : Nat), s.mode = .running → s.plant.stagger = some d →
    let x : Plant := { s.plant.reach d with stagger := none }
    let y := x.walk
    let may (a : ActId) : Prop := x.waitsForPermit a = true ∧ x.admissible a = true
    exec .staggerExpiry s = .next (s.onPlant fun _ => y)
      ∧ ((∀ e ∈ x.queue, ¬ may e.fan) → y = x)
      ∧ (∀ front e rest f, x.queue = front ++ e :: rest → (∀ b ∈ front, ¬ may b.fan) → may e.fan →
        x.chans.look e.fan = .fan f → (∀ g, f.cfg.group = some g → x.figs.look g = x.figures g) →
        let free : Prop := f.cls = .manual ∨ ∀ g, f.cfg.group = some g → (x.groups.look g).velocity = 0
        let roomy : Prop := f.cls ≠ .manual ∨ ∀ g, f.cfg.group = some g → (x.groups.look g).velocity = 0
        y.stagger = some (x.now + x.staggerInterval * 1000)
          ∧ (∀ q ∈ y.queue, q.fan ≠ e.fan)
          ∧ (roomy → y.queue = x.queue.filter fun q => q.fan != e.fan)
          ∧ (roomy → ∀ b g, b ≠ e.fan → x.chans.look b = .fan g → ∃ v, y.chans.look b = .fan { g with applied := v })
          ∧ (∀ b g, b ≠ e.fan → y.chans.look b = .fan g → g.energized = true →
            ∃ h, x.chans.look b = .fan h ∧ h.energized = true)
          ∧ ∃ v, (free → v = f.demanded)
            ∧ (x.proofPresent e.fan = false → y.chans.look e.fan = .fan { f with
              state := .starting, run := true, present := f.cfg.minSpeed, applied := v, requeue := false
              proofTimer := some (x.now + f.cfg.proofTime * 1000) })
            ∧ (x.proofPresent e.fan = true → y.chans.look e.fan = .fan { f with
              state := .running, run := true, present := f.cfg.minSpeed, applied := v, requeue := false
              proofTimer := none, faultCause := none }))
      ∧ (∀ a f, x.chans.look a = .fan f → f.cls = .manual ∨ (∀ g, f.cfg.group = some g → (x.groups.look g).velocity = 0) →
        x.admissible a = true)
      ∧ ∀ a f g, x.chans.look a = .fan f → f.cfg.group = some g → (x.groups.look g).velocity ≠ 0 → f.cls ≠ .manual →
        (x.admissible a = true ↔ (x.figs.look g).minFlow + f.cfg.rated * f.cfg.minSpeed + 1000 * (x.groups.look g).margin
          ≤ (x.figs.look g).available)

/-- An evaluation of a checked group on the figures as the channels stand (R105): the available capacity is the inlet capacity of
the inlets AT_OPEN less the flow of the manual fans at their demanded speeds, and 0 if that is more (R103, R106, R107). Fans are
shed while the minimum flow exceeds it, the most recent grant first and none beyond that need; a shed fan stops with cause SHED, a
requeue note and a FAN_SHED report (R96, R108). The remaining fans take their demanded speeds where those fit, and otherwise the
speeds of R109's rounds: the rounded-down share of what is left, or the minimum for a fan whose share falls below it. The flow of
the applied speeds is within the available capacity (R110), and every channel outside the scaled set stays as it was. The group's
scaled fans stand once in its grant history (R98). It is the evaluation that looks for no grant, as inside a grant; what the
others keep is stated above of every step. -/
def Obligations.AnEvaluationKeepsTheFlowWithinTheCapacity : Prop :=
  ∀ (x : Plant) (g : GroupId), (x.groups.look g).velocity ≠ 0 →
    (∀ a ∈ x.scaledSet g, a ∈ x.history.look g) → (x.history.look g).Nodup →
    (∀ a ∈ x.scaledSet g, ∀ f, x.chans.look a = .fan f → f.cfg.minSpeed ≤ f.demanded) →
    let y := x.evaluate id g
    let inlet (a : ActId) : Nat := match x.chans.look a with
      | .damper d => if d.cfg.role = .inlet ∧ d.cfg.group = some g ∧ d.state = .atOpen then d.cfg.freeArea else 0
      | _ => 0
    let ofFan (k : Fan → Nat) (p : Plant) (a : ActId) : Nat := match p.chans.look a with
      | .fan f => k f
      | _ => 0
    let energized (f : Fan) : Prop := f.state = .starting ∨ f.state = .running ∨ f.state = .runFault
    let manual (a : ActId) : Nat := ofFan (fun f =>
      if f.cfg.group = some g ∧ f.energized = true ∧ f.cls = .manual then f.cfg.rated * f.demanded else 0) x a
    let A := 100 * (x.groups.look g).velocity * (allActs.map inlet).sum - (allActs.map manual).sum
    let least (l : List ActId) : Nat := (l.map (ofFan (fun f => f.cfg.rated * f.cfg.minSpeed) x)).sum
    let wanted (l : List ActId) : Nat := (l.map (ofFan (fun f => f.cfg.rated * f.demanded) x)).sum
    let place (a : ActId) : Nat := (x.history.look g).idxOf a
    let before := x.scaledSet g
    let after := y.scaledSet g
    let shedReport (a : ActId) : Report := ⟨.fanShed, x.now % 4294967296, some (.actuator a), some (.fan .stopping),
      some (.capacity (A / 1000))⟩
    y.figs.look g = y.figures g ∧ (y.figs.look g).available = A
      ∧ (∀ a, a ∈ before ↔ ∃ f, x.chans.look a = .fan f ∧ f.cfg.group = some g ∧ energized f ∧ f.cls ≠ .manual)
      ∧ (after.map (ofFan (fun f => f.cfg.rated * f.applied) y)).sum ≤ A
      ∧ (∀ a ∈ after, ∀ f, y.chans.look a = .fan f → f.cfg.minSpeed ≤ f.applied ∧ f.applied ≤ f.demanded)
      ∧ (∀ a, a ∉ before → y.chans.look a = x.chans.look a)
      ∧ y.demands = x.demands ∧ y.inputs = x.inputs ∧ y.stagger = x.stagger ∧ y.now = x.now
      -- Shedding (R108).
      ∧ after.Sublist before ∧ least after ≤ A ∧ (least before ≤ A → after = before)
      ∧ (∀ a ∈ before, a ∉ after → A < least (before.filter fun b => decide (place b ≤ place a))
        ∧ ∀ b ∈ before, place a ≤ place b → b ∉ after)
      ∧ (∀ a f, a ∈ before → a ∉ after → x.chans.look a = .fan f →
        (∃ h, y.chans.look a = .fan h ∧ h.run = false ∧ h.applied = 0 ∧ h.present = 0 ∧ h.requeue = true)
        ∧ (x.proofPresent a = true → y.chans.look a = .fan { f with
          state := .stopping, run := false, present := 0, applied := 0, proofTimer := none, faultCause := none
          stopCause := some .shed, runDownTimer := some (x.now + f.cfg.runDown * 1000), requeue := true })
        ∧ (y.ffReports.reports.length < 32 → shedReport a ∈ y.ffReports.reports)
        ∧ (y.blReports.reports.length < 32 → shedReport a ∈ y.blReports.reports))
      -- Allocation (R109).
      ∧ (∀ a ∈ after, ∀ f, x.chans.look a = .fan f → ∃ v, y.chans.look a = .fan { f with applied := v })
      ∧ (wanted after ≤ A → ∀ a ∈ after, ofFan Fan.applied y a = ofFan Fan.demanded x a)
      ∧ (A < wanted after → ∃ (free : Nat → List ActId) (n : Nat),
        let fixed (k : Nat) : List ActId := after.filter fun a => decide (a ∉ free k)
        let share (k : Nat) (a : ActId) : Nat :=
          ofFan Fan.demanded x a * (A - least (fixed k)) / (wanted after - wanted (fixed k))
        let m (a : ActId) : Nat := ofFan (fun f => f.cfg.minSpeed) x a
        free 0 = after ∧ (∀ k, free (k + 1) = (free k).filter fun a => decide (m a ≤ share k a)) ∧ free (n + 1) = free n
          ∧ ∀ a ∈ after, ofFan Fan.applied y a = if a ∈ free n then share n a else m a)

/-! ### Tests -/

/-- TEST ZONE is refused by the checks of R118 in their order, a malformed body and a zone out of range first. Otherwise the hold
is brought into 10 to 600 s, the zone's record opened, and the zone is TESTING and executes its own plan from step 1 in class TEST
(R119). Its record then holds findings of the posting alone: FAULT, of channels that were in a fault state (R120). -/
def Obligations.TestZoneIsCheckedAndBeginsTheTest : Prop :=
  ∀ (s : State) (n hold : Nat), s.taking .bl = true →
    let v := s.supervise .bl
    let refused (e : Reason) : Prop := exec (.testZone .bl (.fields ⟨n, hold⟩)) s = .next (v.reply .bl (.error e))
    let held := if hold < 10 then 10 else if 600 < hold then 600 else hold
    exec (.testZone .bl .malformed) s = .next (v.reply .bl (.error .badArgument))
      ∧ (n = 0 ∨ 48 < n → refused .badArgument)
      ∧ ∀ z, zoneOfNumber n = some z →
        let c := s.site.ic.config z
        (c.present = false → refused .zoneAbsent)
          ∧ (c.present = true → s.incident = true → refused .fireMode)
          ∧ (c.present = true → s.incident = false → s.testRunning = true → refused .testRunning)
          ∧ (c.present = true → s.incident = false → s.testRunning = false →
            (c.testPermitted = false ∨ (s.zone z).state ≠ .normal → refused .notPermitted)
            ∧ (c.testPermitted = true → (s.zone z).state = .normal →
              (c.planBlock = none ∨ (∃ b, c.planBlock = some b ∧ (s.pmc.block b).state ≠ .valid) → refused .noPlan)
              ∧ ∀ b, c.planBlock = some b → (s.pmc.block b).state = .valid →
                (s.pmc.ctrl ≠ .ready → refused .planMemoryBusy)
                ∧ (s.pmc.ctrl = .ready → ∃ t k, exec (.testZone .bl (.fields ⟨n, hold⟩)) s = .next t ∧ t.Accepted .bl
                  ∧ t.zone z = { s.zone z with state := .testing } ∧ (∀ y, y ≠ z → t.zone y = s.zone y)
                  ∧ t.site.works.ts.test = some ⟨z, held, .plan⟩
                  ∧ (∃ found, t.site.works.ts.records.look z
                    = ⟨.none, none, some held, some (s.now % 4294967296), none, [], found⟩
                    ∧ (s.plant.Settled → ∀ f ∈ found, f.kind = .fault ∧ match s.plant.chans.look f.act with
                      | .damper d => d.state = .travelFault ∨ d.state = .switchFault
                      | .fan g => g.state = .runFault ∨ g.state = .stopFault
                      | .unassigned => False))
                  ∧ t.site.works.ctx z = some k ∧ k.plan = .own b ∧ k.cls = .test ∧ k.step = 1 ∧ k.phase = .sequencing
                  ∧ k.outcomes = [] ∧ t.incident = false ∧ t.pmc = s.pmc)))

/-- ABORT TEST closes the test in progress ABORTED (R124, R125) and the expiry of the hold timer closes it by the rule of R123
(R122): the record takes the outcome, the end time and the ended steps, its findings kept; the zone is NORMAL and executes no
more, its demands withdrawn (R42). Without a test ABORT TEST is refused NOTHING_IN_PROGRESS, and a malformed body BAD_ARGUMENT in
any case (R125). TEST_RESULT, with the outcome and the abort cause or the number of findings, is the closing event's last report
(R126). Whatever command closes a test, its record has an outcome and the time as end time, and TEST_RESULT joins both queues
where they have room; ALARM and SET ZONE MODE close it ABORTED with causes ALARM and FF (R124, R126). At hold expiry the Timebase
stands at least at the deadline: log entry 5, the model's choice. -/
def Obligations.ATestEndsByItsHoldOrByAnAbort : Prop :=
  (∀ s : State, s.taking .bl = true → s.testRunning = false →
      exec (.abortTest .bl (.fields ())) s = .next ((s.supervise .bl).reply .bl (.error .nothingInProgress)))
    ∧ (∀ s : State, s.taking .bl = true →
      exec (.abortTest .bl .malformed) s = .next ((s.supervise .bl).reply .bl (.error .badArgument)))
    ∧ (∀ (i : Instr) (s t : State) (u : Test), s.mode = .running → t.mode = .running → exec i s = .next t →
      s.site.works.ts.test = some u → t.testRunning = false →
      let r := t.site.works.ts.records.look u.zone
      let result : Report := ⟨.testResult, t.now % 4294967296, some (.zone u.zone), some (.test r.outcome),
        some (match r.cause with
          | some c => .abortCause c
          | none => .count r.findings.length)⟩
      r.outcome ≠ .none ∧ r.stop = some (t.now % 4294967296)
        ∧ (t.plant.ffReports.reports.length < 32 → result ∈ t.plant.ffReports.reports)
        ∧ (t.plant.blReports.reports.length < 32 → result ∈ t.plant.blReports.reports)
        ∧ (∀ p b, i = .alarm p b → r.outcome = .aborted ∧ r.cause = some .alarm)
        ∧ ∀ p b, i = .setZoneMode p b → r.outcome = .aborted ∧ r.cause = some .ff)
    ∧ ∀ (s : State) (u : Test), s.site.works.ts.test = some u →
      let z := u.zone
      let old := s.site.works.ts.records.look z
      let steps := s.site.works.outcomes z
      let closed (t : State) (outcome : TestOutcome) (cause : Option AbortCause) (now : Nat) : Prop :=
        t.testRunning = false ∧ t.zone z = { s.zone z with state := .normal } ∧ t.site.works.ctx z = none
          ∧ t.site.works.ts.records.look z = { old with outcome, cause, stop := some (now % 4294967296), steps }
          ∧ (∀ y, y ≠ z → t.zone y = s.zone y ∧ t.site.works.ts.records.look y = s.site.works.ts.records.look y)
          ∧ t.site.ic.fireOrder = s.site.ic.fireOrder ∧ t.site.ic.lockedOut = s.site.ic.lockedOut ∧ t.pmc = s.pmc
          ∧ (let detail : Detail := match cause with
              | some c => .abortCause c
              | none => .count old.findings.length
            let result : Report := ⟨.testResult, now % 4294967296, some (.zone z), some (.test outcome), some detail⟩
            let ends (q : ReportQueue) : Prop := q.reports.length < 32 → q.reports.getLast? = some result
            ends t.plant.ffReports ∧ ends t.plant.blReports)
          ∧ (s.ZonesConsistent → s.DemandsRight → ∀ a, ∀ e ∈ t.plant.demands.look a, e.orig ≠ .zone z)
      let failed : Prop := (∃ o ∈ steps, o.result = .incomplete) ∨ ∃ f ∈ old.findings, f.kind = .fault
      let slow : Prop := ∃ f ∈ old.findings, f.kind = .slow
      (s.taking .bl = true → ∃ t, exec (.abortTest .bl (.fields ())) s = .next t ∧ t.Accepted .bl
        ∧ closed t .aborted (some .abortTest) s.now)
        ∧ ∀ d, s.mode = .running → u.phase = .hold d → ∃ t o, exec .holdExpiry s = .next t ∧ t.now = max s.now d
          ∧ t.ports = s.ports ∧ closed t o none (max s.now d)
          ∧ (failed → o = .fail) ∧ (¬ failed → slow → o = .passSlow) ∧ (¬ failed → ¬ slow → o = .pass)

/-- The findings of an open test record (R120). An entry to a fault state, handed for an actuator in the posted table of the zone
under test, inserts a FAULT finding, makes a SLOW one FAULT and leaves a FAULT one, with a damper's last travel from its
statistics and a fan's absent; a capture brings the last travel of a finding up to date, and a slow one inserts SLOW where there
is none; for any other actuator nothing changes. The first demand of the zone on a channel already in a fault state inserts FAULT.
So whatever command brings such a channel into a fault state or a slow capture leaves a finding. The list of what is handed is the
model's own: log entries 8 and 27. -/
def Obligations.ATestRecordsItsFindings : Prop :=
  let found (w : Works) (z : ZoneId) : List Finding := (w.ts.records.look z).findings
  let inOrder (l : List Finding) : Prop := l.Pairwise fun f g => f.act.val < g.act.val
  let last (x : Plant) (a : ActId) : Option Nat := match x.chans.look a with
    | .damper _ => (x.stats.look a).last
    | _ => none
  let faulted (x : Plant) (a : ActId) : Prop := match x.chans.look a with
    | .damper d => d.state = .travelFault ∨ d.state = .switchFault
    | .fan f => f.state = .runFault ∨ f.state = .stopFault
    | .unassigned => False
  let opened (w : Works) (u : Test) : Prop :=
    w.ts.test = some u ∧ (w.ts.records.look u.zone).outcome = .none ∧ inOrder (found w u.zone)
  let counts (w : Works) (z : ZoneId) (a : ActId) : Prop := ∃ c, w.ctx z = some c ∧ ∃ p, (a, p) ∈ c.posted
  (∀ (w : Works) (n : TestNote) (u : Test), opened w u →
      let old := found w u.zone
      let v := w.takeNote n
      let new := found v u.zone
      let none_ (a : ActId) : Prop := ∀ f ∈ old, f.act ≠ a
      let adds (g : Finding) : Prop := ∀ f, f ∈ new ↔ f = g ∨ (f ∈ old ∧ f.act ≠ g.act)
      inOrder new ∧ v = { w with ts := { w.ts with
          records := w.ts.records.put u.zone { w.ts.records.look u.zone with findings := new } } }
        ∧ (∀ a, n = .fault a → counts w u.zone a → (none_ a → adds ⟨a, .fault, last w.plant a⟩)
          ∧ ∀ f ∈ old, f.act = a → (f.kind = .slow → adds ⟨a, .fault, last w.plant a⟩) ∧ (f.kind = .fault → new = old))
        ∧ (∀ a t slow, n = .capture a t slow → counts w u.zone a → (none_ a → slow = true → adds ⟨a, .slow, some t⟩)
          ∧ (none_ a → slow = false → new = old) ∧ ∀ f ∈ old, f.act = a → adds ⟨a, f.kind, some t⟩)
        ∧ ∀ a, n = .fault a ∨ (∃ t slow, n = .capture a t slow) → ¬ counts w u.zone a → v = w)
    ∧ (∀ (order : List ZoneId) (k : Nat) (w : Works) (e : PlanEntry) (u : Test) (c : Ctx), opened w u →
      w.ctx u.zone = some c → c.cls = .test →
      let old := found w u.zone
      let new := found (w.postEntry order u.zone k e) u.zone
      let fits : Prop := (∃ d p, w.plant.chans.look e.act = .damper d ∧ e.pos = .damper p)
        ∨ ∃ f t, w.plant.chans.look e.act = .fan f ∧ e.pos = .fan t
      let first : Prop := ∀ r ∈ c.posted, r.1 ≠ e.act
      (fits → first → faulted w.plant e.act → (∀ f ∈ old, f.act ≠ e.act) →
        ∀ f, f ∈ new ↔ f = ⟨e.act, .fault, last w.plant e.act⟩ ∨ f ∈ old)
        ∧ (¬ (fits ∧ first ∧ faulted w.plant e.act) → new = old))
    ∧ (∀ (i : Instr) (s t : State) (a : ActId) (u v : Test), s.mode = .running → t.mode = .running → exec i s = .next t →
      opened s.site.works u → counts s.site.works u.zone a → t.site.works.ts.test = some v → v.zone = u.zone →
      (¬ faulted s.plant a → faulted t.plant a → ∃ f ∈ found t.site.works u.zone, f.act = a ∧ f.kind = .fault)
        ∧ ∀ f ∈ found s.site.works u.zone, ∃ g ∈ found t.site.works u.zone, g.act = f.act
          ∧ (f.kind = .fault → g.kind = .fault))
    ∧ ∀ (s : State) (a : ActId) (d : Damper) (u : Test) (o c : Bool) (start : Nat), s.mode = .running →
      opened s.site.works u → counts s.site.works u.zone a → s.plant.chans.look a = .damper d → s.plant.Settled →
      d.state = .opening ∨ d.state = .closing ∨ d.state = .travelFault →
      switchCond o c = d.target.endCond → switchCond (s.plant.inputs.look a).first.debounced
        (s.plant.inputs.look a).second.debounced ≠ d.target.endCond → d.cause = some .command → d.captureStart = some start →
      ∃ t, exec (.switchChange a o c) s = .next t
        ∧ (∀ f ∈ found s.site.works u.zone, f.act = a →
          ⟨a, f.kind, (t.plant.stats.look a).last⟩ ∈ found t.site.works u.zone)
        ∧ ((∀ f ∈ found s.site.works u.zone, f.act ≠ a) → (t.plant.stats.look a).slow = true →
          ⟨a, .slow, (t.plant.stats.look a).last⟩ ∈ found t.site.works u.zone)
        ∧ ((∀ f ∈ found s.site.works u.zone, f.act ≠ a) → (t.plant.stats.look a).slow = false →
          ∀ f ∈ found t.site.works u.zone, f.act ≠ a)

/-! ### Plan memory -/

/-- ERASE SETUP, its checks and its breaking (R132, R133); ERASE CONFIRM with its checks and the beginning of the erase (R134);
the completion of the erase (R135, R130, R141). A completion finds the Timebase at least at its time: log entry 5, the model's
choice. -/
def Obligations.AnEraseTakesASetupAndItsConfirm : Prop :=
  ∀ (s : State) (b : BlockId),
    let m := s.pmc
    let old := m.block b
    (s.taking .bl = true →
      let v := s.supervise .bl
      let setup : Instr := .eraseSetup .bl (.fields b.val)
      let confirm : Instr := .eraseConfirm .bl (.fields b.val)
      let refused (i : Instr) (n : Pmc) (e : Reason) : Prop := exec i s = .next ({ v with pmc := n }.reply .bl (.error e))
      let broken : Pmc := { m with ctrl := .ready, flags := { m.flags with sequence := true } }
      (m.ctrl.operating = true → refused setup m .planMemoryBusy ∧ refused confirm m .planMemoryBusy)
        ∧ (m.ctrl = .ready → m.flags.any = true → refused setup m .statusUncleared ∧ refused confirm m .statusUncleared)
        ∧ (m.ctrl = .ready → m.flags.any = false → m.commissioning.debounced = false →
          refused setup m .noCommissioning ∧ refused confirm m .noCommissioning)
        ∧ (m.ctrl = .ready → m.flags.any = false → m.commissioning.debounced = true →
          exec setup s = .next ({ v with pmc := { m with ctrl := .eraseSetup b } }.reply .bl (.ok []))
          ∧ refused confirm broken .sequence)
        ∧ (∀ c, m.ctrl = .eraseSetup c → refused setup broken .sequence ∧ (c ≠ b → refused confirm broken .sequence))
        ∧ (m.ctrl = .eraseSetup b → m.flags.any = false → m.commissioning.debounced = true →
          (s.incident = true ∨ s.testRunning = true →
            refused confirm { m with ctrl := .ready, flags := { m.flags with permission := true } } .permission)
          ∧ (s.incident = false → s.testRunning = false → old.lock ≠ .unlocked →
            refused confirm { m with ctrl := .ready, flags := { m.flags with lock := true } } .lock)
          ∧ (s.incident = false → s.testRunning = false → old.lock = .unlocked →
            ∃ t ends, exec confirm s = .next t ∧ t.Accepted .bl ∧ t.site = v.site
              ∧ t.pmc = { m with
                blocks := m.blocks.put b { old with eraseMark := true, state := .erasing }, ctrl := .busy (.erase b) ends }
              ∧ s.now + 500 ≤ ends ∧ ends ≤ s.now + 2000)))
      ∧ ∀ (d : Nat) (verified : Bool), s.mode = .running → m.ctrl = .busy (.erase b) d →
        let st : BlockState := if verified then .blank else .corrupt
        ∃ t, exec (.eraseCompletion verified) s = .next t ∧ t.pmc.ctrl = .ready
          ∧ (∀ q, t.pmc.cond b q = .unwritten) ∧ (t.pmc.block b).commitMark = none
          ∧ (t.pmc.block b).eraseMark = !verified ∧ (t.pmc.block b).state = st
          ∧ (t.pmc.block b).lock = (if m.commissioning.debounced then old.lock else old.lock.locking)
          ∧ (∀ c, c ≠ b → t.pmc.block c = m.block c)
          ∧ (∀ k, Memory.read t.pmc.mem k = if k / 4096 = b.val then 0xFF#8 else Memory.read m.mem k)
          ∧ t.pmc.flags = (if verified then m.flags else { m.flags with erase := true })
          ∧ t.plant = (s.plant.reach d).report .planOpDone (some (.block b)) (some (.blockState st)) (some (.op .erase))

/-- WRITE RECORD is taken on an UNLOCKED block that is BLANK or OPEN, at an UNWRITTEN position, and otherwise sets WRITE (R136);
during an incident it is refused FIRE_MODE (R132). Its completion stores the record's 128 bytes and touches no other byte. A
completion finds the Timebase at least at its time: log entry 5, the model's choice. -/
def Obligations.AWriteFillsItsPositionAtItsCompletion : Prop :=
  ∀ (s : State) (b : BlockId) (q : PosId) (record : List Byte), record.length = 128 →
    let m := s.pmc
    let old := m.block b
    (s.taking .bl = true → m.ctrl = .ready → m.flags.any = false → m.commissioning.debounced = true →
      let v := s.supervise .bl
      let write : Instr := .writeRecord .bl (.fields ⟨b.val, q.val, record⟩)
      let takes : Prop := old.lock = .unlocked ∧ (old.state = .blank ∨ old.state = .opened) ∧ m.cond b q = .unwritten
      (s.incident = true → exec write s = .next (v.reply .bl (.error .fireMode)))
        ∧ (s.incident = false → ¬ takes →
          exec write s = .next ({ v with pmc := { m with flags := { m.flags with write := true } } }.reply .bl (.error .write)))
        ∧ (s.incident = false → takes → ∃ t ends, exec write s = .next t ∧ t.Accepted .bl ∧ t.site = v.site
          ∧ t.pmc = { m with blocks := m.blocks.put b { old with state := .opened }, ctrl := .busy (.write b q record) ends }
          ∧ s.now + 1 ≤ ends ∧ ends ≤ s.now + 20))
      ∧ ∀ d : Nat, s.mode = .running → m.ctrl = .busy (.write b q record) d → Memory.wf m.mem = true →
        ∃ t, exec .writeCompletion s = .next t ∧ t.pmc.ctrl = .ready ∧ t.pmc.cond b q = .written
          ∧ (∀ r, r ≠ q → t.pmc.cond b r = m.cond b r) ∧ (t.pmc.block b).state = old.state
          ∧ (t.pmc.block b).lock = (if m.commissioning.debounced then old.lock else old.lock.locking)
          ∧ (∀ c, c ≠ b → t.pmc.block c = m.block c) ∧ t.pmc.flags = m.flags
          ∧ (∀ i, i < 128 → record[i]? = some (Memory.read t.pmc.mem (recordBase b q + i)))
          ∧ (∀ k, k < recordBase b q ∨ recordBase b q + 128 ≤ k → Memory.read t.pmc.mem k = Memory.read m.mem k)
          ∧ t.plant = (s.plant.reach d).report .planOpDone (some (.block b)) (some (.blockState old.state)) (some (.op .write))

/-- COMMIT is refused LOCK, WRITE and PLAN_INVALID in that order, each with its flag, and begins otherwise; block 63 is committed
without validation. A plan is valid when its header and its n steps are WRITTEN and no position behind them is, with 1 to 8 steps,
at most 24 entries of a step, legal and distinct actuators, legal positions and speeds, and a dwell and a step timeout in their
ranges (R137, laid out by R173). Its completion makes the block VALID with its checksum, and the start-up classification finds it
so (R137, R143). A completion finds the Timebase at least at its time: log entry 5, the model's choice. -/
def Obligations.ACommitSealsItsBlock : Prop :=
  ∀ (s : State) (b : BlockId),
    let m := s.pmc
    let old := m.block b
    (s.taking .bl = true → m.ctrl = .ready → m.flags.any = false → m.commissioning.debounced = true → s.incident = false →
      let v := s.supervise .bl
      let commit : Instr := .commit .bl (.fields b.val)
      let refused (f : StatusFlags) (e : Reason) : Prop :=
        exec commit s = .next ({ v with pmc := { m with flags := f } }.reply .bl (.error e))
      (old.lock ≠ .unlocked → refused { m.flags with lock := true } .lock)
        ∧ (old.lock = .unlocked → old.state ≠ .opened → refused { m.flags with write := true } .write)
        ∧ (old.lock = .unlocked → old.state = .opened → b ≠ 63 → m.planValid b = false →
          refused { m.flags with planInvalid := true } .planInvalid)
        ∧ (old.lock = .unlocked → old.state = .opened → b = 63 ∨ m.planValid b = true →
          ∃ t ends, exec commit s = .next t ∧ t.Accepted .bl ∧ t.site = v.site
            ∧ t.pmc = { m with ctrl := .busy (.commit b) ends } ∧ s.now + 1 ≤ ends ∧ ends ≤ s.now + 200))
      ∧ (let byte (q : PosId) (i : Nat) : Nat := (Memory.read m.mem (recordBase b q + i)).toNat
        let number (q : PosId) (i : Nat) : Nat := byte q i * 256 + byte q (i + 1)
        m.planValid b = true ↔ m.cond b 0 = .written ∧ 1 ≤ byte 0 0 ∧ byte 0 0 ≤ 8
          ∧ (∀ q : PosId, byte 0 0 < q.val → m.cond b q = .unwritten)
          ∧ ∀ q : PosId, 1 ≤ q.val → q.val ≤ byte 0 0 → m.cond b q = .written ∧ byte q 4 ≤ 24
            ∧ (∀ i, i < byte q 4 → 1 ≤ byte q (5 + 5 * i) ∧ byte q (5 + 5 * i) ≤ 64 ∧ byte q (6 + 5 * i) ≤ 3
              ∧ (byte q (6 + 5 * i) = 3 → 1 ≤ number q (8 + 5 * i) ∧ number q (8 + 5 * i) ≤ 1000))
            ∧ (∀ i j, i < j → j < byte q 4 → byte q (5 + 5 * i) ≠ byte q (5 + 5 * j))
            ∧ number q 0 ≤ 600 ∧ 10 ≤ number q 2 ∧ number q 2 ≤ 900 ∧ number q 0 ≤ number q 2)
      ∧ ∀ d : Nat, s.mode = .running → m.ctrl = .busy (.commit b) d →
        ∃ t, exec .commitCompletion s = .next t ∧ t.pmc.ctrl = .ready ∧ t.pmc.mem = m.mem ∧ t.pmc.flags = m.flags
          ∧ t.pmc.block b = { old with
            commitMark := some (.sound (m.checksum b)), state := .valid
            lock := if m.commissioning.debounced then old.lock else old.lock.locking }
          ∧ (∀ c, c ≠ b → t.pmc.block c = m.block c)
          ∧ (old.eraseMark = false → t.pmc.classify b = .valid)
          ∧ t.plant = (s.plant.reach d).report .planOpDone (some (.block b)) (some (.blockState .valid)) (some (.op .commit))

/-- SUSPEND keeps the remaining time of the operation in progress (R138) and RESUME, past the checks of R139, lets it fall again;
without such an operation both are refused NOTHING_IN_PROGRESS. A target is locked at its suspension where the commissioning input
is off (R141). -/
def Obligations.ASuspendedOperationKeepsItsRemainingTime : Prop :=
  ∀ s : State, s.taking .bl = true →
    let v := s.supervise .bl
    let m := s.pmc
    let suspend : Instr := .suspend .bl (.fields ())
    let resume : Instr := .resume .bl (.fields ())
    let refused (i : Instr) (n : Pmc) (e : Reason) : Prop := exec i s = .next ({ v with pmc := n }.reply .bl (.error e))
    (m.ctrl = .ready → refused suspend m .nothingInProgress ∧ refused resume m .nothingInProgress)
      ∧ (∀ op d, m.ctrl = .busy op d → refused resume m .nothingInProgress
        ∧ ∃ t, exec suspend s = .next t ∧ t.Accepted .bl ∧ t.site = v.site ∧ t.pmc.ctrl = .suspended op (d - s.now)
          ∧ t.pmc.block op.target = { m.block op.target with
            lock := if m.commissioning.debounced then (m.block op.target).lock else (m.block op.target).lock.locking }
          ∧ (∀ c, c ≠ op.target → t.pmc.block c = m.block c) ∧ t.pmc.mem = m.mem ∧ t.pmc.flags = m.flags)
      ∧ ∀ op left, m.ctrl = .suspended op left → refused suspend m .nothingInProgress
        ∧ (s.incident = true → refused resume m .fireMode)
        ∧ (s.incident = false → m.commissioning.debounced = false → refused resume m .noCommissioning)
        ∧ (s.incident = false → m.commissioning.debounced = true →
          ((m.block op.target).lock ≠ .unlocked → refused resume { m with flags := { m.flags with lock := true } } .lock)
          ∧ ((m.block op.target).lock = .unlocked → exec resume s
            = .next ({ v with pmc := { m with ctrl := .busy op (s.now + left) } }.reply .bl (.ok []))))

/-- LOCK, LOCK DOWN and UNLOCK act on the lock state of their block by the table of R140, in READY and SUSPENDED; turning the
commissioning input off locks every UNLOCKED block but the target of an operation in BUSY, and turning it on unlocks nothing
(R141). The pin that the change of the input sets is the model's choice: log entry 7. -/
def Obligations.LocksFollowRequestsAndTheCommissioningInput : Prop :=
  (∀ (s : State) (b : BlockId), s.taking .bl = true →
      let v := s.supervise .bl
      let m := s.pmc
      let old := m.block b
      let lock : Instr := .lock .bl (.fields b.val)
      let lockDown : Instr := .lockDown .bl (.fields b.val)
      let unlock : Instr := .unlock .bl (.fields b.val)
      let becomes (i : Instr) (l : LockState) : Prop :=
        exec i s = .next ({ v with pmc := { m with blocks := m.blocks.put b { old with lock := l } } }.reply .bl (.ok []))
      let refused (i : Instr) (n : Pmc) (e : Reason) : Prop := exec i s = .next ({ v with pmc := n }.reply .bl (.error e))
      (∀ op d, m.ctrl = .busy op d → refused lock m .planMemoryBusy ∧ refused lockDown m .planMemoryBusy
          ∧ (m.commissioning.debounced = true → refused unlock m .planMemoryBusy))
        ∧ ((m.ctrl = .ready ∨ ∃ op left, m.ctrl = .suspended op left) →
          becomes lock (if old.lock = .unlocked then .locked else old.lock) ∧ becomes lockDown .lockedDown
          ∧ (m.commissioning.debounced = false → refused unlock m .noCommissioning)
          ∧ (m.commissioning.debounced = true → old.lock = .lockedDown →
            refused unlock { m with flags := { m.flags with lock := true } } .lock)
          ∧ (m.commissioning.debounced = true → old.lock ≠ .lockedDown → becomes unlock .unlocked)))
    ∧ ∀ s : State,
      (s.mode = .running → s.pmc.commissioning.debounced = true →
        ∃ t, exec .commissioningInputOff s = .next t ∧ t.site = s.site ∧ t.ports = s.ports
          ∧ t.pmc.commissioning.debounced = false ∧ t.pmc.mem = s.pmc.mem ∧ t.pmc.flags = s.pmc.flags
          ∧ (∀ b, s.pmc.ctrl = .eraseSetup b → t.pmc.ctrl = .ready)
          ∧ ((∀ b, s.pmc.ctrl ≠ .eraseSetup b) → t.pmc.ctrl = s.pmc.ctrl)
          ∧ (∀ b, (∀ op d, s.pmc.ctrl = .busy op d → op.target ≠ b) →
            t.pmc.block b = { s.pmc.block b with lock := (s.pmc.block b).lock.locking })
          ∧ ∀ op d, s.pmc.ctrl = .busy op d → t.pmc.block op.target = s.pmc.block op.target)
        ∧ (s.pmc.commissioning.debounced = false →
          exec .commissioningInputOn s = .next { s with pmc := { s.pmc with commissioning := Input.settle true } })

/-- The checks of R132 that no other statement gives. A number out of range or a malformed body is refused BAD_ARGUMENT, nothing
changes and a setup stays pending (check 1); a pending setup is broken by WRITE RECORD, COMMIT, SUSPEND, RESUME and the lock
requests, which set SEQUENCE and are not performed (check 2); WRITE RECORD and COMMIT are refused PLAN_MEMORY_BUSY,
STATUS_UNCLEARED, NO_COMMISSIONING and FIRE_MODE in that order (checks 3 to 6). At incident start a BUSY operation is suspended
with its remaining time and a pending setup cancelled without SEQUENCE; READY and SUSPENDED stay (R18, R139). -/
def Obligations.ASetupIsBrokenAndIncidentsAreQuiet : Prop :=
  (∀ s : State, s.taking .bl = true →
      let v := s.supervise .bl
      let m := s.pmc
      let refused (n : Pmc) (e : Reason) (i : Instr) : Prop := exec i s = .next ({ v with pmc := n }.reply .bl (.error e))
      let bad := refused m .badArgument
      (∀ n, 63 < n → bad (.eraseSetup .bl (.fields n)) ∧ bad (.eraseConfirm .bl (.fields n))
          ∧ bad (.commit .bl (.fields n)) ∧ bad (.lock .bl (.fields n)) ∧ bad (.lockDown .bl (.fields n))
          ∧ bad (.unlock .bl (.fields n)))
        ∧ (∀ n k r, 63 < n ∨ 31 < k → bad (.writeRecord .bl (.fields ⟨n, k, r⟩)))
        ∧ (bad (.eraseSetup .bl .malformed) ∧ bad (.eraseConfirm .bl .malformed) ∧ bad (.writeRecord .bl .malformed)
          ∧ bad (.commit .bl .malformed) ∧ bad (.suspend .bl .malformed) ∧ bad (.resume .bl .malformed)
          ∧ bad (.lock .bl .malformed) ∧ bad (.lockDown .bl .malformed) ∧ bad (.unlock .bl .malformed))
        ∧ ∀ (b : BlockId) (q : PosId) (r : List Byte),
          let write : Instr := .writeRecord .bl (.fields ⟨b.val, q.val, r⟩)
          let commit : Instr := .commit .bl (.fields b.val)
          let both (n : Pmc) (e : Reason) : Prop := refused n e write ∧ refused n e commit
          let broken : Pmc := { m with ctrl := .ready, flags := { m.flags with sequence := true } }
          (∀ c, m.ctrl = .eraseSetup c → both broken .sequence ∧ refused broken .sequence (.suspend .bl (.fields ()))
            ∧ refused broken .sequence (.resume .bl (.fields ())) ∧ refused broken .sequence (.lock .bl (.fields b.val))
            ∧ refused broken .sequence (.lockDown .bl (.fields b.val))
            ∧ refused broken .sequence (.unlock .bl (.fields b.val)))
          ∧ (∀ op, (∃ d, m.ctrl = .busy op d) ∨ (∃ left, m.ctrl = .suspended op left) → both m .planMemoryBusy)
          ∧ (m.ctrl = .ready → m.flags.any = true → both m .statusUncleared)
          ∧ (m.ctrl = .ready → m.flags.any = false → m.commissioning.debounced = false → both m .noCommissioning)
          ∧ (m.ctrl = .ready → m.flags.any = false → m.commissioning.debounced = true → s.incident = true →
            both m .fireMode))
    ∧ ∀ (m : Pmc) (now : Nat),
      let n := m.incidentStart now
      (m.ctrl = .ready → n = m) ∧ (∀ op left, m.ctrl = .suspended op left → n = m)
        ∧ (∀ b, m.ctrl = .eraseSetup b → n = { m with ctrl := .ready })
        ∧ ∀ op d, m.ctrl = .busy op d → n.ctrl = .suspended op (d - now) ∧ n.mem = m.mem ∧ n.flags = m.flags
          ∧ (∀ b, b ≠ op.target → n.block b = m.block b)
          ∧ n.block op.target = { m.block op.target with
            lock := if m.commissioning.debounced then (m.block op.target).lock else (m.block op.target).lock.locking }

/-! ### Reads -/

/-- The plan-memory reads (R142, R173, R175): a record with its condition unless its block is under an operation, the states of
the 64 blocks, the controller's status, the geometry; and CLEAR PLAN STATUS, which clears the six flags and nothing else (R131).
That a position out of range is refused BAD_ARGUMENT also where the block is under an operation is the model's choice: log entry
36. -/
def Obligations.PlanReadsAnswerWhatPlanMemoryHolds : Prop :=
  ∀ s : State, s.taking .bl = true →
    let v := s.supervise .bl
    let m := s.pmc
    let answered (i : Instr) (a : Answer) : Prop := exec i s = .next (v.reply .bl a)
    (∀ n k, 63 < n ∨ 31 < k → answered (.readRecord .bl (.fields ⟨n, k⟩)) (.error .badArgument))
      ∧ (∀ (b : BlockId) (q : PosId),
        let read : Instr := .readRecord .bl (.fields ⟨b.val, q.val⟩)
        (m.ctrl.target = some b → answered read (.error .planMemoryBusy))
        ∧ (m.ctrl.target ≠ some b → ∃ bytes, answered read (.ok ((m.cond b q).code :: bytes)) ∧ bytes.length = 128
          ∧ (m.cond b q = .unwritten → ∀ v ∈ bytes, v = 0xFF#8)
          ∧ (m.cond b q ≠ .unwritten → ∀ i, i < 128 → bytes[i]? = some (Memory.read m.mem (recordBase b q + i)))))
      ∧ (∃ bytes, answered (.readBlockStates .bl (.fields ())) (.ok bytes) ∧ bytes.length = 128
        ∧ ∀ b : BlockId, bytes[2 * b.val]? = some (m.block b).state.code ∧ bytes[2 * b.val + 1]? = some (m.block b).lock.code)
      ∧ (∃ ctrl, answered (.planStatus .bl (.fields ())) (.ok (ctrl ++ [m.flags.code, flagByte m.commissioning.debounced]))
        ∧ (m.ctrl = .ready → ctrl = [0#8, 0#8, 0#8, 0#8, 0#8, 0#8, 0#8, 0#8])
        ∧ (∀ b, m.ctrl = .eraseSetup b → ctrl = [1#8, 2#8, 0#8, byteOf b.val, 0#8, 0#8, 0#8, 0#8])
        ∧ (∀ op d, m.ctrl = .busy op d → ctrl = [2#8, 7#8, op.kind.code, byteOf op.target.val] ++ bytes4 (d - s.now))
        ∧ (∀ op left, m.ctrl = .suspended op left → ctrl = [3#8, 7#8, op.kind.code, byteOf op.target.val] ++ bytes4 left))
      ∧ answered (.queryGeometry .bl (.fields ())) (.ok [64#8, 32#8, 8#8, 24#8, 0#8, 63#8])
      ∧ exec (.clearPlanStatus .bl (.fields ())) s
        = .next ({ v with pmc := { m with flags := ⟨false, false, false, false, false, false⟩ } }.reply .bl (.ok []))

/-- READ REPORTS removes up to n of the oldest reports of its own queue and returns them (R159, R174); the six status reads return
their records, in parts of four zone records, seven actuator records or 27 findings, and refuse a number out of range, or a step
without an entry, BAD_ARGUMENT (R161 to R163, R175). What the records hold is stated below, byte for byte. How the parts and the
actuator records are laid out is in part the model's choice: log entries 18 to 22. -/
def Obligations.ReadsOnFfAndBlAnswerTheirRecords : Prop :=
  ∀ (s : State) (p : Port) (q : ReportQueue), s.taking p = true → (s.supervise p).queueOf p = some q →
    let v := s.supervise p
    let w := s.site.works
    let answered (i : Instr) (a : Answer) : Prop := exec i s = .next (v.reply p a)
    let bad (i : Instr) : Prop := answered i (.error .badArgument)
    let part (limit : Nat) (l : List (List Byte)) : Answer :=
      .ok ([byteOf (min limit l.length), byteOf l.length] ++ (l.take limit).flatten)
    (∀ n, n = 0 ∨ 8 < n → bad (.readReports p (.fields n)))
      ∧ (∀ n, 1 ≤ n → n ≤ 8 → ∃ t st, exec (.readReports p (.fields n)) s = .next t
        ∧ (t.port p).rx = .replying ⟨none, st,
          byteOf (min n q.reports.length) :: (q.reports.take n).flatMap Report.bytes⟩
        ∧ t.queueOf p = some ⟨q.reports.drop n, if q.reports.length ≤ n then 0 else q.loss⟩
        ∧ (∀ r, r ≠ p → t.queueOf r = v.queueOf r))
      ∧ (∀ first count, first = 0 ∨ 48 < first ∨ count = 0 ∨ 48 < count →
        bad (.zoneTableRead p (.fields (.range first count))))
      ∧ (∀ (z : ZoneId) (count : Nat), 1 ≤ count → count ≤ 48 →
        answered (.zoneTableRead p (.fields (.range (z.val + 1) count)))
          (part 4 (((allZones.drop z.val).take count).map (zoneRecord s.site))))
      ∧ (∀ n k, n = 0 ∨ 48 < n → bad (.zoneTableRead p (.fields (.step n k)))
        ∧ ∀ f, bad (.testRecordRead p (.fields ⟨n, f, k⟩)))
      ∧ (∀ (z : ZoneId) (k : Nat),
        (k = 0 ∨ (w.outcomes z).length < k → bad (.zoneTableRead p (.fields (.step (z.val + 1) k))))
        ∧ ∀ o, (w.outcomes z)[k]? = some o →
          answered (.zoneTableRead p (.fields (.step (z.val + 1) (k + 1)))) (.ok (stepBytes z (k + 1) o)))
      ∧ (∀ first count, first = 0 ∨ 64 < first ∨ count = 0 ∨ 64 < count →
        bad (.actuatorTableRead p (.fields ⟨first, count⟩)))
      ∧ (∀ (a : ActId) (count : Nat), 1 ≤ count → count ≤ 64 →
        answered (.actuatorTableRead p (.fields ⟨a.val + 1, count⟩))
          (part 7 (((allActs.drop a.val).take count).map (actRecord s.plant))))
      ∧ (∀ n, n = 0 ∨ 4 < n → bad (.groupTableRead p (.fields n)))
      ∧ (∀ g : GroupId, answered (.groupTableRead p (.fields (g.val + 1))) (.ok (s.plant.groupBytes g)))
      ∧ answered (.startQueueRead p (.fields ())) (.ok s.plant.queueBytes)
      ∧ (∀ (z : ZoneId) (k : Nat),
        let r := w.ts.records.look z
        answered (.testRecordRead p (.fields ⟨z.val + 1, .summary, k⟩)) (.ok (r.summaryBytes z))
        ∧ answered (.testRecordRead p (.fields ⟨z.val + 1, .findings, k⟩)) (part 27 ((r.findings.drop k).map Finding.bytes))
        ∧ (k = 0 ∨ r.steps.length < k → bad (.testRecordRead p (.fields ⟨z.val + 1, .step, k⟩)))
        ∧ (∀ o, r.steps[k]? = some o →
          answered (.testRecordRead p (.fields ⟨z.val + 1, .step, k + 1⟩)) (.ok (stepBytes z (k + 1) o))))
      ∧ answered (.linkTableRead p (.fields ())) (.ok (Port.all.flatMap fun r => (v.port r).linkBytes))
      ∧ (bad (.readReports p .malformed) ∧ bad (.zoneTableRead p .malformed) ∧ bad (.actuatorTableRead p .malformed)
        ∧ bad (.groupTableRead p .malformed) ∧ bad (.startQueueRead p .malformed) ∧ bad (.testRecordRead p .malformed)
        ∧ bad (.linkTableRead p .malformed))

/-- What each record that a status read sends holds, byte for byte, by the fields of R162 and R163 and the layouts of R174 and
R175 in the conventions of R171: the zone record, the damper, fan and UNASSIGNED records, the group, the start queue, a step of an
outcome list, the summary of a test record, a finding, a port, and a report in its 15 bytes (R156). An absent optional field is
sent as 0. The places of the presence byte in the actuator records and the codes of their two-valued fields are the model's
choices (log entries 19 and 21), and so are the order of the sets of a group (35) the place of a class without a zone in a report
(38), the low 32 bits of a join time and of what else exceeds its field (22), the group of a PATH damper as loaded (39), and the
missing presence bit of the step outcome list (40). -/
def Obligations.RecordsHoldTheFieldsOfTheirLayouts : Prop :=
  let bit (b : Bool) (v : Nat) : Nat := if b then v else 0
  let yes (b : Bool) : Byte := if b then 0#8 else 1#8
  let number (o : Option Nat) : List Byte := bytes4 (o.getD 0)
  let groupCode (g : Option GroupId) : Byte := match g with
    | none => 0#8
    | some g => byteOf (g.val + 1)
  let resolved (x : Plant) (a : ActId) : List Byte := match x.resolved a with
    | none => [0#8, 0#8]
    | some r => [match r.cls with | .manual => 0#8 | .fire => 1#8 | .test => 2#8 | .normal => 3#8 | .rest => 4#8,
      match r.orig with | none => 0#8 | some (.zone z) => byteOf (z.val + 1) | some .ff => 49#8 | some .bl => 50#8]
  let outcome (r : StepResult) : Byte := match r with | .complete => 0#8 | .incomplete => 1#8
  let entries (l : List StepOutcome) : List Byte :=
    (l.flatMap fun o => [outcome o.result, byteOf o.contested.length, byteOf o.unproven.length])
      ++ List.replicate (24 - 3 * l.length) 0#8
  let acts (l : List ActId) : List Byte := byteOf l.length :: l.map fun a => byteOf (a.val + 1)
  (∀ (x : Site) (z : ZoneId),
      let r := x.zone z
      let plan (b : Byte) (block : Byte) (has : Bool) (c : Ctx) : Prop :=
        c.outcomes.length ≤ 8 → zoneRecord x z = [byteOf (z.val + 1), yes (x.ic.config z).present,
          match r.state with
            | .normal => 0#8 | .lockedOut => 1#8 | .active => 2#8 | .restoring => 3#8 | .heldOff => 4#8 | .testing => 5#8,
          byteOf (bit r.holders.al1 1 + bit r.holders.al2 2 + bit r.holders.al3 4 + bit r.holders.al4 8),
          match r.ffMode with | .auto => 0#8 | .extract => 1#8 | .off => 2#8,
          byteOf (bit r.origin.isSome 1 + bit r.rank.isSome 2 + 4 + bit has 8 + 16 + 32 + bit r.purge.isSome 64),
          match r.origin with | some .ff => 1#8 | _ => 0#8]
          ++ number r.rank ++ [b, block, byteOf c.step, match c.phase with | .sequencing => 0#8 | .established => 1#8]
          ++ number (r.purge.map fun d => d - x.works.plant.now)
          ++ [byteOf (min 64 ((c.posted.filter fun e => (x.works.plant.chans.look e.1).isFault).length + c.ignored)),
            byteOf c.outcomes.length] ++ entries c.outcomes
      (x.works.ctx z = none → zoneRecord x z = [byteOf (z.val + 1), yes (x.ic.config z).present,
          match r.state with
            | .normal => 0#8 | .lockedOut => 1#8 | .active => 2#8 | .restoring => 3#8 | .heldOff => 4#8 | .testing => 5#8,
          byteOf (bit r.holders.al1 1 + bit r.holders.al2 2 + bit r.holders.al3 4 + bit r.holders.al4 8),
          match r.ffMode with | .auto => 0#8 | .extract => 1#8 | .off => 2#8,
          byteOf (bit r.origin.isSome 1 + bit r.rank.isSome 2 + bit r.purge.isSome 64),
          match r.origin with | some .ff => 1#8 | _ => 0#8]
          ++ number r.rank ++ [0#8, 0#8, 0#8, 0#8] ++ number (r.purge.map fun d => d - x.works.plant.now)
          ++ List.replicate 26 0#8)
        ∧ (∀ c b, x.works.ctx z = some c → c.plan = .own b → plan 0#8 (byteOf b.val) true c)
        ∧ (∀ c, x.works.ctx z = some c → c.plan = .fallback → plan 1#8 0#8 true c)
        ∧ (∀ c, x.works.ctx z = some c → c.plan = .none → plan 2#8 0#8 false c))
    ∧ (∀ (x : Plant) (a : ActId),
      let i := x.inputs.look a
      let st := x.stats.look a
      (x.chans.look a = .unassigned → actRecord x a = byteOf (a.val + 1) :: 2#8 :: List.replicate 22 0#8)
        ∧ (∀ d, x.chans.look a = .damper d → actRecord x a = [byteOf (a.val + 1), 0#8,
          match d.cfg.role with | .path => 0#8 | .inlet => 1#8, groupCode d.cfg.group,
          match d.state with
            | .atOpen => 0#8 | .atClosed => 1#8 | .opening => 2#8 | .closing => 3#8 | .travelFault => 4#8
            | .switchFault => 5#8,
          match d.target with | .opened => 0#8 | .closed => 1#8] ++ resolved x a
          ++ [yes d.drive, yes i.first.debounced, yes i.second.debounced,
            byteOf (bit d.cause.isSome 1 + bit st.last.isSome 2 + bit st.average.isSome 4),
            match d.cause with
              | some .drift => 1#8 | some .start => 2#8 | some .switchClear => 3#8 | _ => 0#8]
          ++ number st.last ++ number st.average ++ bytes2 st.count ++ [yes st.slow])
        ∧ (∀ f, x.chans.look a = .fan f → actRecord x a = [byteOf (a.val + 1), 1#8, groupCode f.cfg.group,
          match f.state with
            | .stopped => 1#8 | .waitInterlock => 2#8 | .waitPermit => 3#8 | .starting => 4#8 | .running => 5#8
            | .runFault => 6#8 | .stopping => 7#8 | .stopFault => 8#8,
          match f.target with | .off => 2#8 | .on _ => 3#8]
          ++ bytes2 (match f.target with | .off => 0 | .on v => v) ++ resolved x a
          ++ bytes2 (match f.target with | .off => 0 | .on v => v) ++ bytes2 f.applied ++ bytes2 f.present
          ++ [yes i.first.debounced, yes f.run, byteOf (bit f.faultCause.isSome 1 + bit f.stopCause.isSome 2),
            match f.faultCause with | some .proofLost => 1#8 | _ => 0#8,
            match f.stopCause with | some .interlock => 1#8 | some .shed => 2#8 | some .start => 3#8 | _ => 0#8,
            yes f.requeue, 0#8, 0#8, 0#8])
        ∧ (∀ g, let c := x.groups.look g
          let k := x.figs.look g
          x.groupBytes g = [byteOf (g.val + 1), if c.velocity = 0 then 0#8 else 1#8] ++ bytes2 c.velocity
            ++ bytes2 c.margin ++ [if c.velocity = 0 then 0#8 else 3#8]
            ++ bytes4 (if c.velocity = 0 then 0 else k.capacity / 1000)
            ++ bytes4 (if c.velocity = 0 then 0 else k.available / 1000) ++ bytes4 k.area
            ++ byteOf k.scaled.length :: (k.scaled.flatMap fun a => match x.chans.look a with
              | .fan f => byteOf (a.val + 1) :: (bytes2 f.cfg.minSpeed
                ++ bytes2 (match f.target with | .off => 0 | .on v => v) ++ bytes2 f.applied)
              | _ => [])
            ++ byteOf k.manual.length :: (k.manual.flatMap fun a => match x.chans.look a with
              | .fan f => byteOf (a.val + 1) :: bytes2 (match f.target with | .off => 0 | .on v => v)
              | _ => []))
        ∧ x.queueBytes = byteOf (bit x.stagger.isSome 1) :: (number (x.stagger.map fun d => d - x.now)
          ++ byteOf x.queue.length :: x.queue.flatMap fun e =>
            byteOf (e.fan.val + 1) :: (bytes4 e.joined ++ [match e.cause with | .new => 0#8 | .shed => 1#8])))
    ∧ (∀ (z : ZoneId) (k : Nat) (o : StepOutcome),
      stepBytes z k o = byteOf (z.val + 1) :: byteOf k :: outcome o.result :: (acts o.contested ++ acts o.unproven))
    ∧ (∀ (r : TestRecord) (z : ZoneId), r.steps.length ≤ 8 → r.summaryBytes z = [byteOf (z.val + 1),
        match r.outcome with | .none => 0#8 | .pass => 1#8 | .passSlow => 2#8 | .fail => 3#8 | .aborted => 4#8,
        byteOf (bit r.cause.isSome 1 + bit r.hold.isSome 2 + bit r.start.isSome 4 + bit r.stop.isSome 8),
        match r.cause with
          | some .ff => 1#8 | some .abortTest => 2#8 | some .blSilent => 3#8 | some .reset => 4#8 | _ => 0#8]
        ++ bytes2 (r.hold.getD 0) ++ number r.start ++ number r.stop ++ byteOf r.steps.length :: entries r.steps
        ++ [byteOf r.findings.length])
    ∧ (∀ f : Finding, f.bytes = [byteOf (f.act.val + 1), match f.kind with | .fault => 0#8 | .slow => 1#8,
        byteOf (bit f.last.isSome 1)] ++ number f.last)
    ∧ (∀ r : PortRec, r.linkBytes = [match r.link with | .online => 0#8 | .silent => 1#8, byteOf r.windowLen, yes r.supervised])
    ∧ ∀ r : Report,
      let kind : Nat := match r.kind with
        | .zoneState => 0 | .stepDone => 1 | .stepIncomplete => 2 | .planMissing => 3 | .planEntryIgnored => 4
        | .actuatorTarget => 5 | .damperState => 6 | .travelFault => 7 | .travelRecovered => 8 | .switchFault => 9
        | .fanState => 10 | .fanShed => 11 | .interlockTrip => 12 | .testResult => 13 | .linkSilent => 14
        | .linkRestored => 15 | .planOpDone => 16 | .blockCorrupt => 17 | .configDefaulted => 18 | .controllerStarted => 19
      let subject : Nat × Nat := match r.subject with
        | none => (0, 0)
        | some (.zone z) => (1, z.val + 1)
        | some (.actuator a) => (2, a.val + 1)
        | some (.group g) => (3, g.val + 1)
        | some (.port p) => (4, match p with
          | .alarm .al1 => 1 | .alarm .al2 => 2 | .alarm .al3 => 3 | .alarm .al4 => 4 | .ff => 5 | .bl => 6)
        | some (.block b) => (5, b.val)
      let damper (x : DamperState) : Nat := match x with
        | .atOpen => 0 | .atClosed => 1 | .opening => 2 | .closing => 3 | .travelFault => 4 | .switchFault => 5
      let state : Nat × Nat := match r.newState with
        | none => (0, 0)
        | some (.zone x) => (match x with
          | .normal => 0 | .lockedOut => 1 | .active => 2 | .restoring => 3 | .heldOff => 4 | .testing => 5, 0)
        | some (.step k) => (k, 0)
        | some (.block b) => (b.val, 0)
        | some (.target (.damper p)) => (match p with | .opened => 0 | .closed => 1, 0)
        | some (.target (.fan .off)) => (2, 0)
        | some (.target (.fan (.on v))) => (3, v)
        | some (.damper x) => (damper x, 0)
        | some (.fan x) => (match x with
          | .stopped => 1 | .waitInterlock => 2 | .waitPermit => 3 | .starting => 4 | .running => 5 | .runFault => 6
          | .stopping => 7 | .stopFault => 8, 0)
        | some (.test x) => (match x with | .none => 0 | .pass => 1 | .passSlow => 2 | .fail => 3 | .aborted => 4, 0)
        | some (.link x) => (match x with | .online => 0 | .silent => 1, 0)
        | some (.blockState x) => (match x with
          | .blank => 0 | .opened => 1 | .valid => 2 | .corrupt => 3 | .erasing => 4, 0)
      let cause (n : Nat) : Bool × List Byte := (false, [0#8, 0#8, 0#8, byteOf n])
      let value (n : Nat) : Bool × List Byte := (true, bytes4 n)
      let detail : Bool × List Byte := match r.detail with
        | none => cause 0
        | some (.zoneCause c) => cause (match c with
          | .alarm => 0 | .restore => 1 | .purgeExpiry => 2 | .ffExtract => 3 | .ffOff => 4 | .ffAuto => 5
          | .reEvaluation => 6 | .test => 7)
        | some (.planMissing c) => cause (match c with | .fallback => 0 | .none => 1)
        | some (.cls c z) => (false, [0#8, 0#8] ++ (let n := match c with
            | .manual => 0#8 | .fire => 1#8 | .test => 2#8 | .normal => 3#8 | .rest => 4#8
          match z with
            | some z => [n, byteOf (z.val + 1)]
            | none => [0#8, n]))
        | some (.damperCause c) => cause (match c with | .command => 0 | .drift => 1 | .switchClear => 2 | .clear => 3)
        | some (.travelCause c) => cause (match c with | .command => 0 | .drift => 1 | .start => 2 | .switchClear => 3)
        | some (.stateLeft x) => cause (damper x)
        | some (.fanCause c) => cause (match c with
          | .command => 0 | .interlockMade => 1 | .interlock => 2 | .grant => 3 | .proof => 4 | .noProof => 5
          | .proofLost => 6 | .stopped => 7 | .runDown => 8 | .clear => 9)
        | some (.abortCause c) => cause (match c with
          | .alarm => 0 | .ff => 1 | .abortTest => 2 | .blSilent => 3 | .reset => 4)
        | some (.op k) => cause (match k with | .erase => 0 | .write => 1 | .commit => 2)
        | some (.startKind k) => cause (match k with | .powerOn => 0 | .resetInput => 1 | .restartRequest => 2)
        | some (.count n) => value n
        | some (.actuator a) => value (a.val + 1)
        | some (.travelTime t) => value t
        | some (.capacity l) => value l
        | some (.window n) => value n
        | some (.recordPosition n) => value n
      r.bytes.length = 15 ∧ r.bytes = byteOf kind :: (bytes4 r.stamp ++ [byteOf subject.1, byteOf subject.2, byteOf state.1]
        ++ bytes2 state.2
        ++ [byteOf (bit r.subject.isSome 1 + bit r.newState.isSome 2 + bit r.detail.isSome 4 + bit detail.1 8)] ++ detail.2)

/-! ### Resets and the start-up operation -/

/-- A reset begins the start-up operation in any state (R164): outputs de-energized, report queues empty, the inputs' debounced
states begun afresh, no test, no operation (R143, R165 step 1). A power-on reset clears statistics, test records and locks; a warm
restart, by the reset input or after the reply to an accepted RESTART CONTROLLER (R155), keeps statistics, closed test records and
locked-down blocks. An operation that is cut off leaves an erase its erase mark, a write its position INCOMPLETE, a commit a
damaged commit mark (R143). The reset input holds the operation until it is released. Marked as the model's choices: that an
interrupted erase leaves the bytes, positions and commit mark as they were (log entry 12), that what is cleared or kept is so
already at the reset (log entry 16), a release that holds nothing (25), the pin of the reset input (7). -/
def Obligations.AResetBeginsTheStartUpOperation : Prop :=
  ∀ s : State,
    let m := s.pmc
    let begun (kind : StartKind) (held : Bool) (t : State) : Prop :=
      t.mode = .startUp kind held 0 ∧ t.now = 0 ∧ t.plant.ffReports = ⟨[], 0⟩ ∧ t.plant.blReports = ⟨[], 0⟩
        ∧ (∀ a d, t.plant.chans.look a = .damper d → d.drive = false)
        ∧ (∀ a f, t.plant.chans.look a = .fan f → f.run = false ∧ f.present = 0 ∧ f.duty = 0)
        ∧ (∀ a, (t.plant.inputs.look a).first.debounced = false ∧ (t.plant.inputs.look a).second.debounced = false)
        ∧ (∀ p, (t.port p).rx = .hunting) ∧ t.pmc.commissioning.debounced = false ∧ t.resetInput.debounced = held
        ∧ t.testRunning = false ∧ t.pmc.ctrl = .ready ∧ t.restartDue = false
        ∧ (m.ctrl.operating = false → t.pmc.mem = m.mem ∧ ∀ b, (t.pmc.block b).conds = (m.block b).conds
          ∧ (t.pmc.block b).commitMark = (m.block b).commitMark ∧ (t.pmc.block b).eraseMark = (m.block b).eraseMark)
        ∧ ∀ op, (∃ d, m.ctrl = .busy op d) ∨ (∃ left, m.ctrl = .suspended op left) →
          (∀ b, (t.pmc.block b).eraseMark = (m.block b).eraseMark)
          ∧ (∀ b, b ≠ op.target → (t.pmc.block b).conds = (m.block b).conds
            ∧ (t.pmc.block b).commitMark = (m.block b).commitMark)
          ∧ (∀ b, op = .erase b → t.pmc.mem = m.mem ∧ (t.pmc.block b).conds = (m.block b).conds
            ∧ (t.pmc.block b).commitMark = (m.block b).commitMark)
          ∧ (∀ b q r, op = .write b q r → t.pmc.cond b q = .incomplete ∧ (∀ k, k ≠ q → t.pmc.cond b k = m.cond b k)
            ∧ (t.pmc.block b).commitMark = (m.block b).commitMark
            ∧ ∀ k, k < recordBase b q ∨ recordBase b q + 128 ≤ k → Memory.read t.pmc.mem k = Memory.read m.mem k)
          ∧ (∀ b, op = .commit b → t.pmc.mem = m.mem ∧ (t.pmc.block b).conds = (m.block b).conds
            ∧ (t.pmc.block b).commitMark = some .damaged)
    let warm (t : State) : Prop :=
      t.plant.stats = s.plant.stats
        ∧ (∀ z, let r := s.site.works.ts.records.look z
          t.site.works.ts.records.look z = if r.outcome = .none ∧ r.start.isSome = true
            then { r with outcome := .aborted, cause := some .reset, steps := [] } else r)
        ∧ ∀ b, (t.pmc.block b).lock = if (m.block b).lock = .lockedDown then .lockedDown else .locked
    (∃ t, exec .powerOnReset s = .next t ∧ begun .powerOn false t ∧ (∀ a, t.plant.stats.look a = ⟨none, none, 0, false⟩)
      ∧ (∀ z, t.site.works.ts.records.look z = ⟨.none, none, none, none, none, [], []⟩)
      ∧ ∀ b, (t.pmc.block b).lock = .locked)
      ∧ (∃ t, exec .resetInputAsserted s = .next t ∧ begun .resetInput true t ∧ warm t)
      ∧ (∀ r, s.mode = .running → (s.port .bl).rx = .replying r → s.restartDue = true →
        ∃ t, exec (.replySent .bl) s = .next t ∧ begun .restartRequest false t ∧ warm t)
      ∧ (∀ kind e, s.mode = .startUp kind true e → exec .resetInputReleased s
        = .next { s with mode := .startUp kind false 0, resetInput := Input.settle false })
      ∧ (s.mode = .running → exec .resetInputReleased s = .next { s with resetInput := Input.settle false })

/-- The start-up operation completes: the 6408 runs from Timebase 0 (R165), the zones as R23 leaves them, no demand, test,
context, queue or history, plan memory classified with every flag clear (R143), every port HUNTING with its restart-pending flag
set (R144, R154), every damper and fan derived from its inputs (R81, R82), at most sixteen fans (R83), and each path list naming
PATH dampers once (R168). That the operation leaves records, statistics and locks as it finds them, the reset having set them, and
that it may end at any moment, are the model's choices: log entries 16 and 14. -/
def Obligations.TheStartUpOperationSetsEveryBlockAfresh : Prop :=
  ∀ (s : State) (kind : StartKind) (elapsed : Nat), s.mode = .startUp kind false elapsed →
    ∃ t, exec .startUpOperation s = .next t ∧ t.mode = .running ∧ t.now = 0
      ∧ (∀ z, t.zone z = ⟨.normal, ⟨false, false, false, false⟩, .auto, none, none, none⟩ ∧ t.site.works.ctx z = none)
      ∧ t.site.ic.fireOrder = [] ∧ t.site.ic.lockedOut = [] ∧ t.site.ic.rank = 0 ∧ t.testRunning = false
      ∧ t.site.works.ts.records = s.site.works.ts.records ∧ t.plant.stats = s.plant.stats
      ∧ (∀ a, t.plant.demands.look a = []) ∧ t.plant.queue = [] ∧ t.plant.stagger = none
      ∧ (∀ g, t.plant.history.look g = [] ∧ t.plant.figs.look g = t.plant.figures g)
      ∧ t.pmc.ctrl = .ready ∧ t.pmc.flags = ⟨false, false, false, false, false, false⟩ ∧ t.pmc.mem = s.pmc.mem
      ∧ (∀ b, t.pmc.block b = { s.pmc.block b with state := s.pmc.classify b })
      ∧ (∀ p, (t.port p).rx = .hunting ∧ (t.port p).link = .online ∧ (t.port p).restart = true ∧ (t.port p).errors = 0
        ∧ (t.port p).window = (if (t.port p).supervised then some ((t.port p).windowLen * 1000) else none)
        ∧ (p ≠ .bl → (t.port p).supervised = true))
      ∧ (∀ a d, t.plant.chans.look a = .damper d →
        let i := s.plant.inputs.look a
        let cond := switchCond i.first.debounced i.second.debounced
        d.target = d.cfg.rest ∧ (d.drive = true ↔ d.cfg.rest ≠ d.cfg.fail)
        ∧ (cond = .contradictory → d.state = .switchFault ∧ d.timer = none)
        ∧ (cond = d.target.endCond → d.state = d.target.atState ∧ d.timer = none)
        ∧ (cond ≠ .contradictory → cond ≠ d.target.endCond → d.state = d.target.travelState
          ∧ d.timer = some (d.cfg.travelLimit * 1000) ∧ d.cause = some .start ∧ d.captureStart = none))
      ∧ (∀ a f, t.plant.chans.look a = .fan f →
        f.target = .off ∧ f.run = false ∧ f.applied = 0 ∧ f.present = 0
        ∧ ((s.plant.inputs.look a).first.debounced = false → f.state = .stopped)
        ∧ ((s.plant.inputs.look a).first.debounced = true → f.state = .stopping ∧ f.stopCause = some .start
          ∧ f.runDownTimer = some (f.cfg.runDown * 1000))
        ∧ f.cfg.path.Nodup ∧ ∀ b ∈ f.cfg.path, ∃ d, t.plant.chans.look b = .damper d ∧ d.cfg.role = .path)
      ∧ (allActs.filter fun a => t.plant.chans.look a matches .fan _).length ≤ 16

/-- What the start-up operation loads (R166 to R169, laid out by R173). Block 63 VALID, a record that is WRITTEN and carries A5h
is accepted; a declined one takes its defaults: windows of 10 s, 30 s for BL, supervised, a stagger interval of 5 s; UNASSIGNED
channels; unchecked groups with a margin of 2,000 L/s; zones not present. Numbers are clamped to their ranges, enumerated fields
fall back. Fans after the sixteenth are UNASSIGNED. Where a list's count exceeds its most it is clamped: log entry 23, the model's
choice; so are the reading of yes and no as 0 and 1, log entry 21, and the upper bits of a set of lines, log entry 22. -/
def Obligations.ConfigurationIsLoadedFromBlock63 : Prop :=
  ∀ (s : State) (kind : StartKind) (elapsed : Nat), s.mode = .startUp kind false elapsed →
    let m := s.pmc
    let taken (q : PosId) : Prop := m.classify 63 = .valid ∧ m.cond 63 q = .written ∧ byteAt (m.recordBytes 63 q) 0 = 0xA5#8
    let byte (q : PosId) (i : Nat) : Nat := (byteAt (m.recordBytes 63 q) i).toNat
    let number (q : PosId) (i : Nat) : Nat := byte q i * 256 + byte q (i + 1)
    let clamp (lo hi n : Nat) : Nat := if n < lo then lo else if hi < n then hi else n
    let group (n : Nat) (g : Option GroupId) : Prop :=
      (n = 0 ∨ 4 < n → g = none) ∧ (1 ≤ n → n ≤ 4 → ∃ k : GroupId, g = some k ∧ k.val + 1 = n)
    let position (n : Nat) : DamperPos := if n = 0 then .opened else .closed
    let place (a : ActId) : PosId := ⟨1 + a.val / 4, by omega⟩
    let at_ (a : ActId) (i : Nat) : Nat := byte (place a) (1 + 31 * (a.val % 4) + i)
    let wide (a : ActId) (i : Nat) : Nat := number (place a) (1 + 31 * (a.val % 4) + i)
    let isFan (a : ActId) : Prop := taken (place a) ∧ at_ a 0 = 1
    let home (z : ZoneId) : PosId := ⟨18 + z.val / 4, by omega⟩
    ∃ t, exec .startUpOperation s = .next t
      -- Ports and timing (R167).
      ∧ (taken 0 → (∀ p : Port, (t.port p).windowLen = clamp 2 60 (byte 0 (1 + p.index.val)))
        ∧ (t.port .bl).supervised = (byte 0 7 != 1) ∧ t.plant.staggerInterval = min 30 (byte 0 8))
      ∧ (¬ taken 0 → (∀ p : Port, (t.port p).windowLen = if p = .bl then 30 else 10)
        ∧ (t.port .bl).supervised = true ∧ t.plant.staggerInterval = 5)
      ∧ (∀ p : Port, p ≠ .bl → (t.port p).supervised = true)
      -- Channels (R168).
      ∧ (∀ a, ¬ taken (place a) ∨ 1 < at_ a 0 → t.plant.chans.look a = .unassigned)
      ∧ (∀ a, taken (place a) → at_ a 0 = 0 → ∃ d, t.plant.chans.look a = .damper d
        ∧ d.cfg.role = (if at_ a 1 = 1 then .inlet else .path) ∧ group (at_ a 2) d.cfg.group
        ∧ d.cfg.fail = position (at_ a 3) ∧ d.cfg.rest = position (at_ a 4)
        ∧ d.cfg.travelLimit = clamp 5 180 (wide a 5) ∧ d.cfg.freeArea = min 4000 (wide a 7))
      ∧ (∀ (a : ActId) (before : List ActId), isFan a → before.Nodup → (∀ b, b ∈ before ↔ b.val < a.val ∧ isFan b) →
        (16 ≤ before.length → t.plant.chans.look a = .unassigned)
        ∧ (before.length < 16 → ∃ f, t.plant.chans.look a = .fan f ∧ group (at_ a 1) f.cfg.group
          ∧ f.cfg.rated = clamp 500 60000 (wide a 2) ∧ f.cfg.minSpeed = clamp 100 800 (wide a 4)
          ∧ f.cfg.slewRate = clamp 10 500 (wide a 6) ∧ f.cfg.proofTime = clamp 5 120 (at_ a 8)
          ∧ f.cfg.runDown = clamp 5 300 (wide a 9)
          ∧ ∀ b, b ∈ f.cfg.path ↔ (∃ i, i < 4 ∧ i < at_ a 11 ∧ at_ a (12 + i) = b.val + 1)
            ∧ taken (place b) ∧ at_ b 0 = 0 ∧ at_ b 1 ≠ 1))
      -- Groups (R102, R169).
      ∧ (∀ g : GroupId, taken 17 → t.plant.groups.look g
        = ⟨if number 17 (1 + 4 * g.val) = 0 then 0 else clamp 50 500 (number 17 (1 + 4 * g.val)),
          min 10000 (number 17 (3 + 4 * g.val))⟩)
      ∧ (∀ g : GroupId, ¬ taken 17 → t.plant.groups.look g = ⟨0, 2000⟩)
      -- Zones (R1, R169).
      ∧ (∀ z, ¬ taken (home z) →
        t.site.ic.config z = ⟨false, none, ⟨false, false, false, false⟩, [], 600, false⟩)
      ∧ ∀ z, taken (home z) →
        let o := 1 + 31 * (z.val % 4)
        let c := t.site.ic.config z
        c.present = (byte (home z) o == 0) ∧ (62 < byte (home z) (o + 1) → c.planBlock = none)
          ∧ (∀ b : BlockId, b.val ≤ 62 → byte (home z) (o + 1) = b.val → c.planBlock = some b)
          ∧ (c.permitted.al1 = true ↔ byte (home z) (o + 2) % 2 = 1)
          ∧ (c.permitted.al2 = true ↔ byte (home z) (o + 2) / 2 % 2 = 1)
          ∧ (c.permitted.al3 = true ↔ byte (home z) (o + 2) / 4 % 2 = 1)
          ∧ (c.permitted.al4 = true ↔ byte (home z) (o + 2) / 8 % 2 = 1)
          ∧ c.purgeTime = min 3600 (number (home z) (o + 3)) ∧ c.testPermitted = (byte (home z) (o + 5) == 0)
          ∧ ∀ y : ZoneId, y ∈ c.compatible ↔
            (∃ i, i < 8 ∧ i < byte (home z) (o + 6) ∧ byte (home z) (o + 7 + i) = y.val + 1)
            ∨ (taken 30 ∧ ∃ i, i < 40 ∧ i < byte 30 1 ∧ byte 30 (2 + 2 * i) = z.val + 1 ∧ byte 30 (3 + 2 * i) = y.val + 1)

/-- The reports of a start-up operation, with time stamp 0, in both queues (R143, R156, R165, R166, R168): BLOCK_CORRUPT for each
block classified CORRUPT, ascending; CONFIG_DEFAULTED once without detail where block 63 is not VALID, and otherwise for each
position 0 to 30 that is declined, or that holds a fan after the sixteenth, ascending, an UNWRITTEN position 30 excepted; then
CONTROLLER_STARTED with the kind. Beyond 32 the newest are lost and counted (R158). -/
def Obligations.StartUpReportsWhatItFound : Prop :=
  ∀ (s : State) (kind : StartKind) (elapsed : Nat) (corrupt : List BlockId) (defaulted : List PosId),
    s.mode = .startUp kind false elapsed → s.now = 0 → s.plant.ffReports = ⟨[], 0⟩ → s.plant.blReports = ⟨[], 0⟩ →
    let m := s.pmc
    let taken (q : PosId) : Prop := m.cond 63 q = .written ∧ byteAt (m.recordBytes 63 q) 0 = 0xA5#8
    let place (a : ActId) : PosId := ⟨1 + a.val / 4, by omega⟩
    let isFan (a : ActId) : Prop := taken (place a) ∧ byteAt (m.recordBytes 63 (place a)) (1 + 31 * (a.val % 4)) = 1#8
    let late (a : ActId) : Prop := isFan a ∧ ∃ before : List ActId, before.Nodup ∧ before.length = 16
      ∧ ∀ b ∈ before, b.val < a.val ∧ isFan b
    corrupt.Pairwise (fun b c => b.val < c.val) → (∀ b, b ∈ corrupt ↔ m.classify b = .corrupt) →
    defaulted.Pairwise (fun q k => q.val < k.val) →
    (∀ q, q ∈ defaulted ↔ q.val ≤ 30 ∧ ((¬ taken q ∧ ¬ (q.val = 30 ∧ m.cond 63 q = .unwritten)) ∨ ∃ a, place a = q ∧ late a)) →
    let reports : List Report :=
      corrupt.map (fun b => ⟨.blockCorrupt, 0, some (.block b), some (.blockState .corrupt), none⟩)
        ++ (if m.classify 63 = .valid then
            defaulted.map fun q => ⟨.configDefaulted, 0, some (.block 63), none, some (.recordPosition q.val)⟩
          else [⟨.configDefaulted, 0, some (.block 63), none, none⟩])
        ++ [⟨.controllerStarted, 0, none, none, some (.startKind kind)⟩]
    let queued : ReportQueue := ⟨reports.take 32, reports.length - 32⟩
    ∃ t, exec .startUpOperation s = .next t ∧ t.plant.ffReports = queued ∧ t.plant.blReports = queued
end

