-- ==== Sys2Proof/Laws/State.lean ====
section
/-!
SUPPORT. The fields of the state after each update: one lemma for each field of each operation that changes a record, so that
no proof unfolds a record update.
-/

namespace Sys2Proof

/-! ### Tables -/

section
variable {α : Type} {n : Nat}

@[simp] theorem Table.look_put_same (t : Table α n) (i : Fin n) (x : α) : (t.put i x).look i = x := by
  simp [Table.look, Table.put]

@[simp] theorem Table.look_put_other (t : Table α n) (i j : Fin n) (x : α) (h : j ≠ i) :
    (t.put i x).look j = t.look j := by
  have h' : i.val ≠ j.val := fun e => h (Fin.ext e.symm)
  simp [Table.look, Table.put, h']

theorem Table.look_put (t : Table α n) (i j : Fin n) (x : α) :
    (t.put i x).look j = if j = i then x else t.look j := by
  by_cases h : j = i
  · subst h; simp
  · simp [h]

@[simp] theorem Table.look_all (x : α) (i : Fin n) : (Table.all n x).look i = x := by
  simp [Table.look, Table.all]

@[simp] theorem Table.look_of (f : Fin n → α) (i : Fin n) : (Table.of f).look i = f i := by
  simp [Table.look, Table.of]

@[simp] theorem Table.look_map {β : Type} (t : Table α n) (f : α → β) (i : Fin n) :
    Table.look (n := n) (Vector.map f t) i = f (t.look i) := by
  simp [Table.look]

/-- Two tables are the same when they hold the same records. -/
theorem Table.ext_look (t u : Table α n) (h : ∀ i : Fin n, t.look i = u.look i) : t = u := by
  apply Vector.ext
  intro i hi
  exact h ⟨i, hi⟩

@[simp] theorem Table.put_look (t : Table α n) (i : Fin n) : t.put i (t.look i) = t :=
  Table.ext_look _ _ fun j => by by_cases h : j = i <;> simp [h]

end

namespace Machine

/-! ### The channel side -/

section
variable (x : Plant) (k : ReportKind) (u : Option Subject) (n : Option NewState) (d : Option Detail)

@[simp] theorem Plant.report_now : (x.report k u n d).now = x.now := rfl
@[simp] theorem Plant.report_chans : (x.report k u n d).chans = x.chans := rfl
@[simp] theorem Plant.report_inputs : (x.report k u n d).inputs = x.inputs := rfl
@[simp] theorem Plant.report_stats : (x.report k u n d).stats = x.stats := rfl
@[simp] theorem Plant.report_demands : (x.report k u n d).demands = x.demands := rfl
@[simp] theorem Plant.report_queue : (x.report k u n d).queue = x.queue := rfl
@[simp] theorem Plant.report_stagger : (x.report k u n d).stagger = x.stagger := rfl
@[simp] theorem Plant.report_staggerInterval : (x.report k u n d).staggerInterval = x.staggerInterval := rfl
@[simp] theorem Plant.report_history : (x.report k u n d).history = x.history := rfl
@[simp] theorem Plant.report_groups : (x.report k u n d).groups = x.groups := rfl
@[simp] theorem Plant.report_figs : (x.report k u n d).figs = x.figs := rfl
@[simp] theorem Plant.report_ffReports :
    (x.report k u n d).ffReports = x.ffReports.take ⟨k, x.stamp, u, n, d⟩ := rfl
@[simp] theorem Plant.report_blReports :
    (x.report k u n d).blReports = x.blReports.take ⟨k, x.stamp, u, n, d⟩ := rfl
@[simp] theorem Plant.report_pxDue : (x.report k u n d).pxDue = x.pxDue := rfl
@[simp] theorem Plant.report_notes : (x.report k u n d).notes = x.notes := rfl

end

section
variable (x : Plant) (a : ActId) (c : Channel)

@[simp] theorem Plant.setChan_now : (x.setChan a c).now = x.now := rfl
@[simp] theorem Plant.setChan_chans : (x.setChan a c).chans = x.chans.put a c := rfl
@[simp] theorem Plant.setChan_inputs : (x.setChan a c).inputs = x.inputs := rfl
@[simp] theorem Plant.setChan_stats : (x.setChan a c).stats = x.stats := rfl
@[simp] theorem Plant.setChan_demands : (x.setChan a c).demands = x.demands := rfl
@[simp] theorem Plant.setChan_queue : (x.setChan a c).queue = x.queue := rfl
@[simp] theorem Plant.setChan_stagger : (x.setChan a c).stagger = x.stagger := rfl
@[simp] theorem Plant.setChan_staggerInterval : (x.setChan a c).staggerInterval = x.staggerInterval := rfl
@[simp] theorem Plant.setChan_history : (x.setChan a c).history = x.history := rfl
@[simp] theorem Plant.setChan_groups : (x.setChan a c).groups = x.groups := rfl
@[simp] theorem Plant.setChan_figs : (x.setChan a c).figs = x.figs := rfl
@[simp] theorem Plant.setChan_ffReports : (x.setChan a c).ffReports = x.ffReports := rfl
@[simp] theorem Plant.setChan_blReports : (x.setChan a c).blReports = x.blReports := rfl
@[simp] theorem Plant.setChan_pxDue : (x.setChan a c).pxDue = x.pxDue := rfl
@[simp] theorem Plant.setChan_notes : (x.setChan a c).notes = x.notes := rfl

@[simp] theorem Plant.handPx_now : (x.handPx a).now = x.now := rfl
@[simp] theorem Plant.handPx_chans : (x.handPx a).chans = x.chans := rfl
@[simp] theorem Plant.handPx_inputs : (x.handPx a).inputs = x.inputs := rfl
@[simp] theorem Plant.handPx_stats : (x.handPx a).stats = x.stats := rfl
@[simp] theorem Plant.handPx_demands : (x.handPx a).demands = x.demands := rfl
@[simp] theorem Plant.handPx_queue : (x.handPx a).queue = x.queue := rfl
@[simp] theorem Plant.handPx_stagger : (x.handPx a).stagger = x.stagger := rfl
@[simp] theorem Plant.handPx_history : (x.handPx a).history = x.history := rfl
@[simp] theorem Plant.handPx_groups : (x.handPx a).groups = x.groups := rfl
@[simp] theorem Plant.handPx_figs : (x.handPx a).figs = x.figs := rfl
@[simp] theorem Plant.handPx_ffReports : (x.handPx a).ffReports = x.ffReports := rfl
@[simp] theorem Plant.handPx_blReports : (x.handPx a).blReports = x.blReports := rfl
@[simp] theorem Plant.handPx_pxDue : (x.handPx a).pxDue = x.pxDue ++ [a] := rfl
@[simp] theorem Plant.handPx_notes : (x.handPx a).notes = x.notes := rfl

end

section
variable (x : Plant) (n : TestNote) (t : Nat)

@[simp] theorem Plant.handTs_now : (x.handTs n).now = x.now := rfl
@[simp] theorem Plant.handTs_chans : (x.handTs n).chans = x.chans := rfl
@[simp] theorem Plant.handTs_inputs : (x.handTs n).inputs = x.inputs := rfl
@[simp] theorem Plant.handTs_stats : (x.handTs n).stats = x.stats := rfl
@[simp] theorem Plant.handTs_demands : (x.handTs n).demands = x.demands := rfl
@[simp] theorem Plant.handTs_queue : (x.handTs n).queue = x.queue := rfl
@[simp] theorem Plant.handTs_stagger : (x.handTs n).stagger = x.stagger := rfl
@[simp] theorem Plant.handTs_history : (x.handTs n).history = x.history := rfl
@[simp] theorem Plant.handTs_groups : (x.handTs n).groups = x.groups := rfl
@[simp] theorem Plant.handTs_figs : (x.handTs n).figs = x.figs := rfl
@[simp] theorem Plant.handTs_ffReports : (x.handTs n).ffReports = x.ffReports := rfl
@[simp] theorem Plant.handTs_blReports : (x.handTs n).blReports = x.blReports := rfl
@[simp] theorem Plant.handTs_pxDue : (x.handTs n).pxDue = x.pxDue := rfl
@[simp] theorem Plant.handTs_notes : (x.handTs n).notes = x.notes ++ [n] := rfl

@[simp] theorem Plant.reach_now : (x.reach t).now = max x.now t := rfl
@[simp] theorem Plant.reach_chans : (x.reach t).chans = x.chansAt (max x.now t) := rfl
@[simp] theorem Plant.reach_inputs : (x.reach t).inputs = x.inputs := rfl
@[simp] theorem Plant.reach_stats : (x.reach t).stats = x.stats := rfl
@[simp] theorem Plant.reach_demands : (x.reach t).demands = x.demands := rfl
@[simp] theorem Plant.reach_queue : (x.reach t).queue = x.queue := rfl
@[simp] theorem Plant.reach_stagger : (x.reach t).stagger = x.stagger := rfl
@[simp] theorem Plant.reach_staggerInterval : (x.reach t).staggerInterval = x.staggerInterval := rfl
@[simp] theorem Plant.reach_history : (x.reach t).history = x.history := rfl
@[simp] theorem Plant.reach_groups : (x.reach t).groups = x.groups := rfl
@[simp] theorem Plant.reach_figs : (x.reach t).figs = x.figs := rfl
@[simp] theorem Plant.reach_ffReports : (x.reach t).ffReports = x.ffReports := rfl
@[simp] theorem Plant.reach_blReports : (x.reach t).blReports = x.blReports := rfl
@[simp] theorem Plant.reach_pxDue : (x.reach t).pxDue = x.pxDue := rfl
@[simp] theorem Plant.reach_notes : (x.reach t).notes = x.notes := rfl

end

/-! ### Works and site -/

section
variable (w : Works) (z : ZoneId) (c : Option Ctx) (g : Plant → Plant)
variable (k : ReportKind) (u : Option Subject) (n : Option NewState) (d : Option Detail)

@[simp] theorem Works.report_plant : (w.report k u n d).plant = w.plant.report k u n d := rfl
@[simp] theorem Works.report_px : (w.report k u n d).px = w.px := rfl
@[simp] theorem Works.report_ts : (w.report k u n d).ts = w.ts := rfl
@[simp] theorem Works.onPlant_plant : (w.onPlant g).plant = g w.plant := rfl
@[simp] theorem Works.onPlant_px : (w.onPlant g).px = w.px := rfl
@[simp] theorem Works.onPlant_ts : (w.onPlant g).ts = w.ts := rfl
@[simp] theorem Works.setCtx_plant : (w.setCtx z c).plant = w.plant := rfl
@[simp] theorem Works.setCtx_ts : (w.setCtx z c).ts = w.ts := rfl
@[simp] theorem Works.setCtx_ctx_same : (w.setCtx z c).ctx z = c := by simp [Works.setCtx, Works.ctx]

@[simp] theorem Works.setCtx_ctx_other (y : ZoneId) (h : y ≠ z) : (w.setCtx z c).ctx y = w.ctx y := by
  simp [Works.setCtx, Works.ctx, h]

end

section
variable (x : Site) (z : ZoneId) (h : Zone → Zone) (g : Works → Works)
variable (k : ReportKind) (u : Option Subject) (n : Option NewState) (d : Option Detail)

@[simp] theorem Site.report_works : (x.report k u n d).works = x.works.report k u n d := rfl
@[simp] theorem Site.report_ic : (x.report k u n d).ic = x.ic := rfl
@[simp] theorem Site.onWorks_works : (x.onWorks g).works = g x.works := rfl
@[simp] theorem Site.onWorks_ic : (x.onWorks g).ic = x.ic := rfl
@[simp] theorem Site.modZone_works : (x.modZone z h).works = x.works := rfl
@[simp] theorem Site.modZone_fireOrder : (x.modZone z h).ic.fireOrder = x.ic.fireOrder := rfl
@[simp] theorem Site.modZone_lockedOut : (x.modZone z h).ic.lockedOut = x.ic.lockedOut := rfl
@[simp] theorem Site.modZone_rank : (x.modZone z h).ic.rank = x.ic.rank := rfl
@[simp] theorem Site.modZone_cfg : (x.modZone z h).ic.cfg = x.ic.cfg := rfl

@[simp] theorem Site.modZone_zone_same : (x.modZone z h).zone z = h (x.zone z) := by
  simp [Site.modZone, Site.zone, Incident.modZone, Incident.zone]

@[simp] theorem Site.modZone_zone_other (y : ZoneId) (e : y ≠ z) : (x.modZone z h).zone y = x.zone y := by
  simp [Site.modZone, Site.zone, Incident.modZone, Incident.zone, e]

@[simp] theorem Incident.place_zones (ic : Incident) : (ic.place z).zones = ic.zones := rfl
@[simp] theorem Incident.place_lockedOut (ic : Incident) : (ic.place z).lockedOut = ic.lockedOut := rfl
@[simp] theorem Incident.place_rank (ic : Incident) : (ic.place z).rank = ic.rank := rfl
@[simp] theorem Incident.place_cfg (ic : Incident) : (ic.place z).cfg = ic.cfg := rfl

end

/-! ### Plan memory -/

section
variable (m : Pmc) (b : BlockId) (g : Block → Block) (y : Block) (f : Flag)

@[simp] theorem Pmc.setBlock_mem : (m.setBlock b y).mem = m.mem := rfl
@[simp] theorem Pmc.setBlock_ctrl : (m.setBlock b y).ctrl = m.ctrl := rfl
@[simp] theorem Pmc.setBlock_flags : (m.setBlock b y).flags = m.flags := rfl
@[simp] theorem Pmc.setBlock_commissioning : (m.setBlock b y).commissioning = m.commissioning := rfl
@[simp] theorem Pmc.setBlock_block_same : (m.setBlock b y).block b = y := by simp [Pmc.setBlock, Pmc.block]

@[simp] theorem Pmc.setBlock_block_other (c : BlockId) (h : c ≠ b) : (m.setBlock b y).block c = m.block c := by
  simp [Pmc.setBlock, Pmc.block, h]

@[simp] theorem Pmc.modBlock_mem : (m.modBlock b g).mem = m.mem := rfl
@[simp] theorem Pmc.modBlock_ctrl : (m.modBlock b g).ctrl = m.ctrl := rfl
@[simp] theorem Pmc.modBlock_flags : (m.modBlock b g).flags = m.flags := rfl
@[simp] theorem Pmc.modBlock_commissioning : (m.modBlock b g).commissioning = m.commissioning := rfl
@[simp] theorem Pmc.modBlock_block_same : (m.modBlock b g).block b = g (m.block b) := by simp [Pmc.modBlock]

@[simp] theorem Pmc.modBlock_block_other (c : BlockId) (h : c ≠ b) : (m.modBlock b g).block c = m.block c := by
  simp [Pmc.modBlock, h]

@[simp] theorem Pmc.raise_mem : (m.raise f).mem = m.mem := rfl
@[simp] theorem Pmc.raise_blocks : (m.raise f).blocks = m.blocks := rfl
@[simp] theorem Pmc.raise_ctrl : (m.raise f).ctrl = m.ctrl := rfl
@[simp] theorem Pmc.raise_flags : (m.raise f).flags = m.flags.raise f := rfl
@[simp] theorem Pmc.raise_commissioning : (m.raise f).commissioning = m.commissioning := rfl

end

/-! ### The whole state -/

section
variable (s : State) (p : Port) (g : Works → Works) (h : PortRec → PortRec)
variable (k : ReportKind) (u : Option Subject) (n : Option NewState) (d : Option Detail)

@[simp] theorem State.report_site : (s.report k u n d).site = s.site.report k u n d := rfl
@[simp] theorem State.report_pmc : (s.report k u n d).pmc = s.pmc := rfl
@[simp] theorem State.report_ports : (s.report k u n d).ports = s.ports := rfl
@[simp] theorem State.report_port (q : Port) : (s.report k u n d).port q = s.port q := rfl
@[simp] theorem State.report_mode : (s.report k u n d).mode = s.mode := rfl
@[simp] theorem State.report_pending : (s.report k u n d).pending = s.pending := rfl
@[simp] theorem State.report_restartDue : (s.report k u n d).restartDue = s.restartDue := rfl
@[simp] theorem State.report_resetInput : (s.report k u n d).resetInput = s.resetInput := rfl
@[simp] theorem State.report_samplePhase : (s.report k u n d).samplePhase = s.samplePhase := rfl
@[simp] theorem State.report_free : (s.report k u n d).free = s.free := rfl

@[simp] theorem State.onWorksOnly_works : (s.onWorksOnly g).site.works = g s.site.works := rfl
@[simp] theorem State.onWorksOnly_ic : (s.onWorksOnly g).site.ic = s.site.ic := rfl
@[simp] theorem State.onWorksOnly_pmc : (s.onWorksOnly g).pmc = s.pmc := rfl
@[simp] theorem State.onWorksOnly_ports : (s.onWorksOnly g).ports = s.ports := rfl
@[simp] theorem State.onWorksOnly_mode : (s.onWorksOnly g).mode = s.mode := rfl
@[simp] theorem State.onWorksOnly_pending : (s.onWorksOnly g).pending = s.pending := rfl
@[simp] theorem State.onWorksOnly_restartDue : (s.onWorksOnly g).restartDue = s.restartDue := rfl
@[simp] theorem State.onWorksOnly_resetInput : (s.onWorksOnly g).resetInput = s.resetInput := rfl
@[simp] theorem State.onWorksOnly_samplePhase : (s.onWorksOnly g).samplePhase = s.samplePhase := rfl
@[simp] theorem State.onWorksOnly_free : (s.onWorksOnly g).free = s.free := rfl

@[simp] theorem State.modPort_site : (s.modPort p h).site = s.site := rfl
@[simp] theorem State.modPort_pmc : (s.modPort p h).pmc = s.pmc := rfl
@[simp] theorem State.modPort_mode : (s.modPort p h).mode = s.mode := rfl
@[simp] theorem State.modPort_pending : (s.modPort p h).pending = s.pending := rfl
@[simp] theorem State.modPort_restartDue : (s.modPort p h).restartDue = s.restartDue := rfl
@[simp] theorem State.modPort_resetInput : (s.modPort p h).resetInput = s.resetInput := rfl
@[simp] theorem State.modPort_samplePhase : (s.modPort p h).samplePhase = s.samplePhase := rfl
@[simp] theorem State.modPort_free : (s.modPort p h).free = s.free := rfl
@[simp] theorem State.modPort_port_same : (s.modPort p h).port p = h (s.port p) := by simp [State.modPort, State.port]

theorem Port.index_inj (p q : Port) (e : p.index = q.index) : p = q := by
  cases p with
  | alarm l => cases q with
    | alarm l' => cases l <;> cases l' <;> simp_all [Port.index]
    | ff => cases l <;> simp [Port.index] at e
    | bl => cases l <;> simp [Port.index] at e
  | ff => cases q with
    | alarm l' => cases l' <;> simp [Port.index] at e
    | ff => rfl
    | bl => simp [Port.index] at e
  | bl => cases q with
    | alarm l' => cases l' <;> simp [Port.index] at e
    | ff => simp [Port.index] at e
    | bl => rfl

@[simp] theorem State.modPort_port_other (q : Port) (e : q ≠ p) : (s.modPort p h).port q = s.port q := by
  have : q.index ≠ p.index := fun i => e (Port.index_inj q p i)
  simp [State.modPort, State.port, this]

end

end Machine
end Sys2Proof
end

