-- ==== Sys2Proof/Laws/Channels.lean ====
section
/-!
SUPPORT. What the operations of the channel side leave alone: no fan operation, evaluation, grant or damper change touches a
demand list, a debounced input, the configuration of a group, the stagger interval or the Timebase.
-/

namespace Sys2Proof.Machine

/-- `y` has the demand lists, inputs, group configuration, stagger interval and Timebase of `x`. -/
structure Plant.Keeps (x y : Plant) : Prop where
  demands : y.demands = x.demands
  inputs : y.inputs = x.inputs
  groups : y.groups = x.groups
  staggerInterval : y.staggerInterval = x.staggerInterval
  now : y.now = x.now

theorem Plant.Keeps.refl (x : Plant) : Plant.Keeps x x := ⟨rfl, rfl, rfl, rfl, rfl⟩

theorem Plant.Keeps.trans {x y z : Plant} (h : Plant.Keeps x y) (k : Plant.Keeps y z) : Plant.Keeps x z :=
  ⟨k.1.trans h.1, k.2.trans h.2, k.3.trans h.3, k.4.trans h.4, k.5.trans h.5⟩

/-- A fold of operations that keep them keeps them. -/
theorem Plant.Keeps.foldl {α : Type} {g : Plant → α → Plant} (hg : ∀ x a, Plant.Keeps x (g x a)) (l : List α) (x : Plant) :
    Plant.Keeps x (l.foldl g x) := by
  induction l generalizing x with
  | nil => exact .refl x
  | cons a l ih => exact (hg x a).trans (ih _)

section
variable (x : Plant) (a : ActId)

theorem Plant.report_keeps (k : ReportKind) (u : Option Subject) (n : Option NewState) (d : Option Detail) :
    Plant.Keeps x (x.report k u n d) := ⟨rfl, rfl, rfl, rfl, rfl⟩

theorem Plant.setChan_keeps (c : Channel) : Plant.Keeps x (x.setChan a c) := ⟨rfl, rfl, rfl, rfl, rfl⟩
theorem Plant.handPx_keeps : Plant.Keeps x (x.handPx a) := ⟨rfl, rfl, rfl, rfl, rfl⟩
theorem Plant.handTs_keeps (n : TestNote) : Plant.Keeps x (x.handTs n) := ⟨rfl, rfl, rfl, rfl, rfl⟩
theorem Plant.leaveQueue_keeps : Plant.Keeps x (x.leaveQueue a) := ⟨rfl, rfl, rfl, rfl, rfl⟩
theorem Plant.refresh_keeps (g : GroupId) : Plant.Keeps x (x.refresh g) := ⟨rfl, rfl, rfl, rfl, rfl⟩
theorem Plant.reportFan_keeps (s : FanState) (c : FanCause) : Plant.Keeps x (x.reportFan a s c) := x.report_keeps ..

theorem Plant.modFan_keeps (g : Fan → Fan) : Plant.Keeps x (x.modFan a g) := by
  unfold Plant.modFan; split <;> first | exact x.setChan_keeps .. | exact .refl x

theorem Plant.fanEnter_keeps (st : FanState) (g : Fan → Fan) : Plant.Keeps x (x.fanEnter a st g) := by
  unfold Plant.fanEnter
  split
  · dsimp only
    split
    · exact ((x.modFan_keeps a _).trans (Plant.handPx_keeps ..)).trans (Plant.handTs_keeps ..)
    · exact (x.modFan_keeps a _).trans (Plant.handPx_keeps ..)
  · exact .refl x

theorem Plant.joinQueue_keeps : Plant.Keeps x (x.joinQueue a) := by
  unfold Plant.joinQueue; split <;> exact ⟨rfl, rfl, rfl, rfl, rfl⟩

theorem Plant.joinHistory_keeps : Plant.Keeps x (x.joinHistory a) := by
  unfold Plant.joinHistory
  split
  · split <;> exact ⟨rfl, rfl, rfl, rfl, rfl⟩
  · exact .refl x

theorem Plant.leaveHistory_keeps : Plant.Keeps x (x.leaveHistory a) := by
  unfold Plant.leaveHistory
  split
  · split <;> exact ⟨rfl, rfl, rfl, rfl, rfl⟩
  · exact .refl x

theorem Plant.selfApplied_keeps : Plant.Keeps x (x.selfApplied a) := by
  unfold Plant.selfApplied
  split
  · split
    · exact x.modFan_keeps a _
    · split
      · exact x.modFan_keeps a _
      · exact .refl x
  · exact .refl x

theorem Plant.handSpeeds_keeps (g : GroupId) : Plant.Keeps x (x.handSpeeds g) :=
  Plant.Keeps.foldl (fun (y : Plant) (p : ActId × Nat) => y.modFan_keeps p.1 _) _ _

theorem Plant.becomeRunning_keeps : Plant.Keeps x (x.becomeRunning a) :=
  (x.fanEnter_keeps a _ _).trans (Plant.reportFan_keeps ..)

end

/-! ### Operations that may look for a grant -/

section
variable {walk : Plant → Plant} (hw : ∀ x, Plant.Keeps x (walk x)) (x : Plant) (a : ActId)
include hw

theorem Plant.startPath_keeps : Plant.Keeps x (x.startPath walk a) := by
  unfold Plant.startPath
  split
  · split
    · exact (((x.fanEnter_keeps a _ _).trans (Plant.reportFan_keeps ..)).trans (Plant.joinQueue_keeps ..)).trans (hw _)
    · exact (x.fanEnter_keeps a _ _).trans (Plant.reportFan_keeps ..)
  · exact .refl x

theorem Plant.completeStop_keeps : Plant.Keeps x (x.completeStop walk a) := by
  unfold Plant.completeStop
  split
  · dsimp only
    split
    · exact (x.fanEnter_keeps a _ _).trans (Plant.reportFan_keeps ..)
    · exact ((x.fanEnter_keeps a _ _).trans (Plant.reportFan_keeps ..)).trans (Plant.startPath_keeps hw _ _)
  · exact .refl x

theorem Plant.shed_keeps (g : GroupId) : Plant.Keeps x (x.shed walk g a) := by
  unfold Plant.shed
  dsimp only
  split
  · exact (((x.report_keeps ..).trans (Plant.fanEnter_keeps ..)).trans (Plant.leaveHistory_keeps ..)).trans
      (Plant.refresh_keeps ..)
  · exact ((((x.report_keeps ..).trans (Plant.fanEnter_keeps ..)).trans (Plant.leaveHistory_keeps ..)).trans
      (Plant.refresh_keeps ..)).trans (Plant.completeStop_keeps hw _ _)

theorem Plant.shedAll_keeps (g : GroupId) : Plant.Keeps x (x.shedAll walk g) := by
  refine Plant.Keeps.foldl (fun y a => ?_) _ _
  dsimp only
  split
  · exact Plant.shed_keeps hw y a g
  · exact .refl y

theorem Plant.evaluate_keeps (g : GroupId) : Plant.Keeps x (x.evaluate walk g) := by
  unfold Plant.evaluate
  dsimp only
  split
  · exact x.refresh_keeps g
  · split
    · exact ((x.refresh_keeps g).trans (Plant.shedAll_keeps hw _ g)).trans (Plant.handSpeeds_keeps _ g)
    · exact (((x.refresh_keeps g).trans (Plant.shedAll_keeps hw _ g)).trans (Plant.handSpeeds_keeps _ g)).trans (hw _)

theorem Plant.fanTouched_keeps : Plant.Keeps x (x.fanTouched walk a) := by
  unfold Plant.fanTouched
  dsimp only
  split
  · exact (x.selfApplied_keeps a).trans (Plant.evaluate_keeps hw _ _)
  · exact x.selfApplied_keeps a

theorem Plant.enterStopping_keeps (broken : Option ActId) : Plant.Keeps x (x.enterStopping walk a broken) := by
  have h : ∀ y, Plant.Keeps x y → Plant.Keeps x ((y.leaveHistory a).fanTouched walk a) := fun y hy =>
    (hy.trans (Plant.leaveHistory_keeps ..)).trans (Plant.fanTouched_keeps hw _ _)
  unfold Plant.enterStopping
  dsimp only
  cases broken with
  | some d =>
    split
    · exact h _ ((x.fanEnter_keeps a _ _).trans (Plant.report_keeps ..))
    · exact (h _ ((x.fanEnter_keeps a _ _).trans (Plant.report_keeps ..))).trans (Plant.completeStop_keeps hw _ _)
  | none =>
    split
    · exact h _ ((x.fanEnter_keeps a _ _).trans (Plant.reportFan_keeps ..))
    · exact (h _ ((x.fanEnter_keeps a _ _).trans (Plant.reportFan_keeps ..))).trans (Plant.completeStop_keeps hw _ _)

end

section
variable (x : Plant) (a : ActId)

theorem Plant.id_keeps (x : Plant) : Plant.Keeps x (id x) := .refl x

theorem Plant.grant_keeps : Plant.Keeps x (x.grant a) := by
  have h : Plant.Keeps x { x with stagger := some (x.now + x.staggerInterval * 1000) } := ⟨rfl, rfl, rfl, rfl, rfl⟩
  have k := (((((h.trans (Plant.leaveQueue_keeps _ a)).trans (Plant.fanEnter_keeps _ a .starting fun f =>
    { f with
      run := true, present := f.cfg.minSpeed, proofTimer := some (x.now + f.cfg.proofTime * 1000), requeue := false })).trans
    (Plant.joinHistory_keeps _ a)).trans (Plant.reportFan_keeps _ a .starting .grant))).trans
    (Plant.fanTouched_keeps Plant.id_keeps _ a)
  unfold Plant.grant
  dsimp only
  split
  · split
    · exact k.trans (Plant.becomeRunning_keeps _ a)
    · exact k
  · exact k

/-- The walk of the start queue keeps them. -/
theorem Plant.walk_keeps : Plant.Keeps x x.walk := by
  unfold Plant.walk
  split
  · exact .refl x
  · split
    · exact x.grant_keeps _
    · exact .refl x

theorem Plant.pathMade_keeps : Plant.Keeps x (x.pathMade a) := by
  unfold Plant.pathMade
  split
  · split
    · exact (((x.fanEnter_keeps a _ _).trans (Plant.reportFan_keeps ..)).trans (Plant.joinQueue_keeps ..)).trans
        (Plant.walk_keeps _)
    · exact .refl x
  · exact .refl x

theorem Plant.pathBroken_keeps (d : ActId) : Plant.Keeps x (x.pathBroken a d) := by
  unfold Plant.pathBroken
  split
  · split
    · exact x.enterStopping_keeps Plant.walk_keeps a _
    · split
      · exact ((x.leaveQueue_keeps a).trans (Plant.fanEnter_keeps ..)).trans (Plant.reportFan_keeps ..)
      · exact .refl x
  · exact .refl x

/-- A fan's taking of a resolved demand keeps them. -/
theorem Plant.fanTarget_keeps (t : FanTarget) (c : ResolvedClass) : Plant.Keeps x (x.fanTarget a t c) := by
  unfold Plant.fanTarget
  split
  · rename_i f _
    have h := x.modFan_keeps a fun f => { f with target := t, cls := c, requeue := f.requeue && t != .off }
    dsimp only
    split
    · split
      · exact h.trans (Plant.startPath_keeps Plant.walk_keeps _ a)
      · exact h
    · split
      · exact (h.trans (Plant.fanEnter_keeps ..)).trans (Plant.reportFan_keeps ..)
      · exact h
    · split
      · exact ((h.trans (Plant.leaveQueue_keeps ..)).trans (Plant.fanEnter_keeps ..)).trans (Plant.reportFan_keeps ..)
      · split
        · exact h.trans (Plant.walk_keeps _)
        · exact h
    iterate 3
      · split
        · exact h.trans (Plant.enterStopping_keeps Plant.walk_keeps _ a _)
        · split
          · exact h.trans (Plant.fanTouched_keeps Plant.walk_keeps _ a)
          · exact h
    · exact h
    · exact h
  · exact .refl x

/-- What an entry to AT_OPEN or a departure from it hands on keeps them. -/
theorem Plant.handOpenness_keeps (was is : DamperState) (cfg : DamperCfg) :
    Plant.Keeps x (x.handOpenness a was is cfg) := by
  have h : Plant.Keeps x (if is = .atOpen then (x.fansThrough a).foldl Plant.pathMade x
      else (x.fansThrough a).foldl (fun y f => y.pathBroken f a) x) := by
    split
    · exact Plant.Keeps.foldl (fun y f => y.pathMade_keeps f) _ _
    · exact Plant.Keeps.foldl (fun y f => y.pathBroken_keeps f a) _ _
  unfold Plant.handOpenness
  split
  · exact .refl x
  · dsimp only
    split
    · exact h.trans (Plant.evaluate_keeps Plant.walk_keeps _ _)
    · exact h

/-- A damper's change of state keeps them. -/
theorem Plant.damperEnter_keeps (was : DamperState) (d : Damper) (k : ReportKind) (e : Option Detail) :
    Plant.Keeps x (x.damperEnter a was d k e) := by
  have h := ((x.setChan_keeps a (.damper d)).trans (Plant.report_keeps _ k (some (.actuator a)) (some (.damper d.state)) e)).trans
    (Plant.handPx_keeps _ a)
  unfold Plant.damperEnter
  dsimp only
  split
  · exact (h.trans (Plant.handTs_keeps ..)).trans (Plant.handOpenness_keeps ..)
  · exact h.trans (Plant.handOpenness_keeps ..)

theorem Plant.damperTarget_keeps (p : DamperPos) : Plant.Keeps x (x.damperTarget a p) := by
  unfold Plant.damperTarget
  split
  · split
    · exact .refl x
    · dsimp only
      split
      · exact x.setChan_keeps a _
      · exact x.damperEnter_keeps ..
      · exact x.damperEnter_keeps ..
      iterate 3
        · split
          · exact x.damperEnter_keeps ..
          · exact x.damperEnter_keeps ..
  · exact .refl x

/-- A channel's taking of a resolved demand keeps them. -/
theorem Plant.channelTakes_keeps (r : Resolved) : Plant.Keeps x (x.channelTakes a r) := by
  unfold Plant.channelTakes
  split
  · exact x.damperTarget_keeps a _
  · exact x.fanTarget_keeps a _ _

theorem Plant.handOff_keeps (old new : Resolved) : Plant.Keeps x (x.handOff a old new) := by
  unfold Plant.handOff
  dsimp only
  split
  · exact (x.channelTakes_keeps a new).trans (Plant.handPx_keeps ..)
  · exact ((x.report_keeps ..).trans (Plant.channelTakes_keeps ..)).trans (Plant.handPx_keeps ..)

/-! ### Demand lists -/

/-- A change of one demand list changes that list, and no other, nor any input. -/
theorem Plant.setDemands_demands (l : List Demand) : (x.setDemands a l).demands = x.demands.put a l := by
  unfold Plant.setDemands
  dsimp only
  split
  · split
    · rfl
    · exact (Plant.handOff_keeps _ a _ _).demands
  · rfl

theorem Plant.setDemands_inputs (l : List Demand) : (x.setDemands a l).inputs = x.inputs := by
  unfold Plant.setDemands
  dsimp only
  split
  · split
    · rfl
    · exact (Plant.handOff_keeps _ a _ _).inputs
  · rfl

theorem Plant.setDemands_now (l : List Demand) : (x.setDemands a l).now = x.now := by
  unfold Plant.setDemands
  dsimp only
  split
  · split
    · rfl
    · exact (Plant.handOff_keeps _ a _ _).now
  · rfl

end

end Sys2Proof.Machine
end

