-- ==== Sys2Proof/Laws/Memory.lean ====
section
/-!
SUPPORT. The laws of the plan memory array's bytes: a read after a write, and the canonical form kept by every operation over
them.
-/

namespace Sys2Proof.Machine

/-! ### The canonical form -/

theorem Memory.wfFrom_mono {lo lo' : Nat} {m : List Host.Cell} (h : lo ≤ lo') (w : Memory.wfFrom lo' m = true) :
    Memory.wfFrom lo m = true := by
  cases m with
  | nil => rfl
  | cons c r =>
    obtain ⟨k, v⟩ := c
    simp only [Memory.wfFrom, Bool.and_eq_true, decide_eq_true_eq] at w ⊢
    exact ⟨⟨⟨by omega, w.1.1.2⟩, w.1.2⟩, w.2⟩

/-- A byte below every listed address is unlisted. -/
theorem Memory.read_of_lt {lo : Nat} {m : List Host.Cell} (w : Memory.wfFrom lo m = true) {a : Nat} (h : a < lo) :
    Memory.read m a = Memory.unlisted := by
  induction m generalizing lo with
  | nil => rfl
  | cons c r ih =>
    obtain ⟨k, v⟩ := c
    simp only [Memory.wfFrom, Bool.and_eq_true, decide_eq_true_eq] at w
    have : ¬ k = a := by omega
    simp only [Memory.read, this, if_false]
    exact ih w.2 (by omega)

theorem Memory.write_wfFrom {lo : Nat} {m : List Host.Cell} (w : Memory.wfFrom lo m = true) {a : Nat} (v : Byte)
    (hlo : lo ≤ a) (hsize : a < Memory.size) : Memory.wfFrom lo (Memory.write m a v) = true := by
  induction m generalizing lo with
  | nil =>
    by_cases hv : v = Memory.unlisted <;> simp [Memory.write, Memory.wfFrom, hv, hlo, hsize]
  | cons c r ih =>
    obtain ⟨k, u⟩ := c
    have w' := w
    simp only [Memory.wfFrom, Bool.and_eq_true, decide_eq_true_eq] at w
    obtain ⟨⟨⟨hk, hks⟩, hu⟩, hr⟩ := w
    unfold Memory.write
    by_cases h1 : a < k
    · by_cases hv : v = Memory.unlisted
      · simp [h1, hv, w']
      · simp [h1, hv, Memory.wfFrom, hlo, hsize, hks, hu, hr, Nat.succ_le_of_lt h1]
    · by_cases h2 : a = k
      · subst h2
        by_cases hv : v = Memory.unlisted
        · simpa [hv] using Memory.wfFrom_mono (by omega) hr
        · simp [hv, Memory.wfFrom, hlo, hsize, hr]
      · simp only [h1, h2, if_false, Memory.wfFrom, Bool.and_eq_true, decide_eq_true_eq]
        exact ⟨⟨⟨hk, hks⟩, hu⟩, ih hr (by omega)⟩

/-- A write in the array keeps the canonical form. -/
theorem Memory.write_wf {m : List Host.Cell} (w : Memory.wf m = true) {a : Nat} (v : Byte) (h : a < Memory.size) :
    Memory.wf (Memory.write m a v) = true := Memory.write_wfFrom w v (Nat.zero_le a) h

/-- Writes that stay in the array keep the canonical form. -/
theorem Memory.writeAll_wf (vs : List Byte) {m : List Host.Cell} (w : Memory.wf m = true) {a : Nat}
    (h : a + vs.length ≤ Memory.size) : Memory.wf (Memory.writeAll m a vs) = true := by
  induction vs generalizing m a with
  | nil => exact w
  | cons v vs ih =>
    simp only [List.length_cons] at h
    exact ih (Memory.write_wf w v (by omega)) (by omega)

/-- An erase keeps the canonical form. -/
theorem Memory.eraseBlock_wf {m : List Host.Cell} (w : Memory.wf m = true) (b : BlockId) :
    Memory.wf (Memory.eraseBlock m b) = true := by
  unfold Memory.wf Memory.eraseBlock at *
  generalize hlo : 0 = lo at w ⊢
  clear hlo
  induction m generalizing lo with
  | nil => rfl
  | cons c r ih =>
    obtain ⟨k, u⟩ := c
    simp only [Memory.wfFrom, Bool.and_eq_true, decide_eq_true_eq] at w
    obtain ⟨⟨⟨hk, hks⟩, hu⟩, hr⟩ := w
    rw [List.filter_cons]
    split
    · simp only [Memory.wfFrom, Bool.and_eq_true, decide_eq_true_eq]
      exact ⟨⟨⟨hk, hks⟩, hu⟩, ih _ hr⟩
    · exact Memory.wfFrom_mono (by omega) (ih _ hr)

/-! ### Reads after writes -/

/-- The byte written is read back, and every other byte reads as before. -/
theorem Memory.read_write {m : List Host.Cell} (w : Memory.wf m = true) (a b : Nat) (v : Byte) :
    Memory.read (Memory.write m a v) b = if b = a then v else Memory.read m b := by
  unfold Memory.wf at w
  generalize 0 = lo at w
  induction m generalizing lo with
  | nil =>
    have e : (a = b) = (b = a) := propext eq_comm
    by_cases hv : v = Memory.unlisted <;> by_cases h : b = a <;> simp [Memory.write, Memory.read, hv, h, e]
  | cons c r ih =>
    obtain ⟨k, u⟩ := c
    simp only [Memory.wfFrom, Bool.and_eq_true, decide_eq_true_eq] at w
    obtain ⟨⟨⟨hk, hks⟩, hu⟩, hr⟩ := w
    unfold Memory.write
    by_cases h1 : a < k
    · by_cases hv : v = Memory.unlisted
      · by_cases hb : b = a
        · subst hb
          have : Memory.read r b = Memory.unlisted := Memory.read_of_lt hr (by omega)
          have hkb : ¬ k = b := by omega
          simp [h1, hv, Memory.read, hkb, this]
        · simp [h1, hv, hb]
      · by_cases hb : b = a
        · subst hb; simp [h1, hv, Memory.read]
        · have : ¬ a = b := fun e => hb e.symm
          simp [h1, hv, Memory.read, hb, this]
    · by_cases h2 : a = k
      · subst h2
        by_cases hb : b = a
        · subst hb
          by_cases hv : v = Memory.unlisted
          · simpa [hv] using Memory.read_of_lt hr (by omega)
          · simp [hv, Memory.read]
        · have : ¬ a = b := fun e => hb e.symm
          by_cases hv : v = Memory.unlisted <;> simp [hv, Memory.read, hb, this]
      · simp only [h1, h2, if_false, Memory.read, ih _ hr]
        by_cases hkb : k = b
        · have : ¬ b = a := fun e => h2 (by omega)
          simp [hkb, this]
        · simp [hkb]

/-- A run of writes is read back byte by byte, and every byte outside it reads as before. -/
theorem Memory.read_writeAll (vs : List Byte) {m : List Host.Cell} (w : Memory.wf m = true) (a b : Nat)
    (h : a + vs.length ≤ Memory.size) :
    Memory.read (Memory.writeAll m a vs) b
      = if a ≤ b ∧ b < a + vs.length then vs.getD (b - a) Memory.unlisted else Memory.read m b := by
  induction vs generalizing m a with
  | nil =>
    have : ¬ (a ≤ b ∧ b < a + ([] : List Byte).length) := by simp
    rw [if_neg this]
    rfl
  | cons v vs ih =>
    simp only [List.length_cons] at h
    simp only [Memory.writeAll]
    rw [ih (Memory.write_wf w v (by omega)) (a + 1) (by omega), Memory.read_write w]
    by_cases hb : b = a
    · subst hb; simp
    · by_cases hin : a + 1 ≤ b ∧ b < a + 1 + vs.length
      · have h' : a ≤ b ∧ b < a + (vs.length + 1) := by omega
        have e : b - a = (b - (a + 1)) + 1 := by omega
        simp only [hin, h', and_self, if_true, List.length_cons]
        rw [e]
        simp
      · have h' : ¬ (a ≤ b ∧ b < a + (vs.length + 1)) := by omega
        rw [if_neg hin, if_neg hb, List.length_cons, if_neg h']

/-- After an erase every byte of the block is FFh, and every other byte as before. -/
theorem Memory.read_eraseBlock (m : List Host.Cell) (b : BlockId) (k : Nat) :
    Memory.read (Memory.eraseBlock m b) k = if k / 4096 = b.val then Memory.unlisted else Memory.read m k := by
  unfold Memory.eraseBlock
  induction m with
  | nil => simp [Memory.read]
  | cons c r ih =>
    obtain ⟨j, u⟩ := c
    by_cases hj : j / 4096 = b.val
    · by_cases hk : j = k
      · subst hk; simp [hj, ih]
      · simp [hj, ih, Memory.read, hk]
    · by_cases hk : j = k
      · subst hk; simp [hj, Memory.read]
      · simp [hj, ih, Memory.read, hk]

/-! ### The operations of the controller -/

/-- Storing a record of 128 bytes keeps the canonical form. -/
theorem Pmc.storeRecord_wf {m : Pmc} (w : Memory.wf m.mem = true) (b : BlockId) (q : PosId) (c : PosCond) (r : List Byte) :
    Memory.wf (m.storeRecord b q c r).mem = true := by
  apply Memory.writeAll_wf _ w
  have := b.isLt
  have := q.isLt
  have : (r.take 128).length ≤ 128 := by simp
  simp only [recordBase, Memory.size]
  omega

/-- A reset that cuts an operation off leaves the bytes as they were, or stores what an interrupted write left. -/
theorem Pmc.cutOff_mem (m : Pmc) (draw : Nat) :
    (m.cutOff draw).mem = m.mem
      ∨ ∃ b q r, (m.cutOff draw).mem = (m.storeRecord b q .incomplete r).mem := by
  obtain ⟨mem, blocks, ctrl, flags, com⟩ := m
  cases ctrl with
  | busy op d =>
    cases op with
    | erase b => exact .inl rfl
    | write b q r => exact .inr ⟨b, q, (List.range 128).map (Config.interruptedByte draw), by simp only [Pmc.cutOff]⟩
    | commit b => exact .inl rfl
  | suspended op d =>
    cases op with
    | erase b => exact .inl rfl
    | write b q r => exact .inr ⟨b, q, (List.range 128).map (Config.interruptedByte draw), by simp only [Pmc.cutOff]⟩
    | commit b => exact .inl rfl
  | ready => exact .inl rfl
  | eraseSetup b => exact .inl rfl

theorem Pmc.cutOff_wf {m : Pmc} (w : Memory.wf m.mem = true) (draw : Nat) : Memory.wf (m.cutOff draw).mem = true := by
  obtain e | ⟨b, q, r, e⟩ := m.cutOff_mem draw
  · rw [e]; exact w
  · rw [e]; exact Pmc.storeRecord_wf w b q .incomplete r

theorem Pmc.erased_wf {m : Pmc} (w : Memory.wf m.mem = true) (b : BlockId) (v : Bool) :
    Memory.wf (m.erased b v).mem = true := by
  unfold Pmc.erased
  split <;> exact Memory.eraseBlock_wf w b

/-- At reset the array's bytes stand in the canonical form. -/
theorem State.reset_wf : Memory.wf State.reset.pmc.mem = true := rfl

end Sys2Proof.Machine
end

