-- ==== Sys2Proof/Laws/PlanMemory.lean ====
section
/-!
SUPPORT. The shared operations of the Plan Memory Controller: the lock at the end of an operation (R141), its suspension (R138,
R139), the beginning of an operation (R130), and a report queue's taking of a report (R158).
-/

namespace Sys2Proof.Machine

section
variable (m : Pmc) (b : BlockId) (now : Nat)

@[simp] theorem Pmc.lockIfOff_mem : (m.lockIfOff b).mem = m.mem := by unfold Pmc.lockIfOff; split <;> rfl
@[simp] theorem Pmc.lockIfOff_ctrl : (m.lockIfOff b).ctrl = m.ctrl := by unfold Pmc.lockIfOff; split <;> rfl
@[simp] theorem Pmc.lockIfOff_flags : (m.lockIfOff b).flags = m.flags := by unfold Pmc.lockIfOff; split <;> rfl

@[simp] theorem Pmc.lockIfOff_commissioning : (m.lockIfOff b).commissioning = m.commissioning := by
  unfold Pmc.lockIfOff; split <;> rfl

theorem Pmc.lockIfOff_block (c : BlockId) :
    (m.lockIfOff b).block c = if c = b ∧ m.commissioning.debounced = false then
      { m.block b with lock := (m.block b).lock.locking } else m.block c := by
  unfold Pmc.lockIfOff
  cases h : m.commissioning.debounced <;> by_cases e : c = b
  · subst e
    cases k : (m.block c).lock <;> simp [LockState.locking, k]
  · simp [e]
  · simp
  · simp

/-- A suspension keeps the operation and its remaining time, and every byte and flag. -/
theorem Pmc.suspendOp_busy (op : ArrayOp) (d : Nat) (h : m.ctrl = .busy op d) :
    m.suspendOp now = { m.lockIfOff op.target with ctrl := .suspended op (d - now) } := by
  simp [Pmc.suspendOp, h]

end

/-- The duration of an operation lies in its range (R130). -/
theorem ArrayOp.duration_range (op : ArrayOp) (draw : Nat) :
    op.range.1 ≤ op.duration draw ∧ op.duration draw < op.range.1 + op.range.2 := by
  have h : 0 < op.range.2 := by cases op <;> simp [ArrayOp.range]
  have := Nat.mod_lt (Config.arrayTime draw) h
  unfold ArrayOp.duration
  omega

/-- A report queue either takes the report at its tail or counts its loss. -/
theorem ReportQueue.take_cases (q : ReportQueue) (r : Report) :
    (q.reports.length < Config.queueLimit ∧ q.take r = { q with reports := q.reports ++ [r] })
      ∨ (Config.queueLimit ≤ q.reports.length ∧ q.take r = { q with loss := min 255 (q.loss + 1) }) := by
  by_cases h : q.reports.length < Config.queueLimit
  · exact .inl ⟨h, by simp [ReportQueue.take, h]⟩
  · exact .inr ⟨by omega, by simp [ReportQueue.take, h]⟩

end Sys2Proof.Machine
end

