-- ==== Sys2Proof/Laws/Requests.lean ====
section
/-!
SUPPORT. What the shared operations of a request can do: the taking of a request (`State.serve`), supervision, the reply, and
the checks an owner is built of.
-/

namespace Sys2Proof.Machine

/-! ### Owners -/

section
variable {α : Type} (k : α → Owner) (s : State)

@[simp] theorem withFields_fields (a : α) : withFields (.fields a) k = k a := rfl
@[simp] theorem withFields_malformed : withFields (.malformed : Body α) k s = (s, .error .badArgument) := rfl
@[simp] theorem withId_some (a : α) : withId (some a) k = k a := rfl
@[simp] theorem withId_none : withId none k s = (s, .error .badArgument) := rfl

theorem require_of_true {ok : State → Bool} {e : Reason} {o : Owner} (h : ok s = true) : require ok e o s = o s := by
  simp [require, h]

theorem require_of_false {ok : State → Bool} {e : Reason} {o : Owner} (h : ok s = false) :
    require ok e o s = (s, .error e) := by
  simp [require, h]

/-- An owner with a check either goes on or refuses and leaves the state alone. -/
theorem require_cases (ok : State → Bool) (e : Reason) (o : Owner) :
    (ok s = true ∧ require ok e o s = o s) ∨ (ok s = false ∧ require ok e o s = (s, .error e)) := by
  cases h : ok s
  · exact .inr ⟨rfl, require_of_false s h⟩
  · exact .inl ⟨rfl, require_of_true s h⟩

end

/-! ### Supervision and the reply -/

section
variable (s : State) (p : Port) (a : Answer)

theorem State.supervise_site :
    (s.supervise p).site
      = if (s.port p).link = .silent then s.site.report .linkRestored (some (.port p)) (some (.link .online)) none
        else s.site := by
  by_cases h : (s.port p).link = .silent <;> simp [State.supervise, h]

@[simp] theorem State.supervise_pmc : (s.supervise p).pmc = s.pmc := by
  simp only [State.supervise]; split <;> rfl

@[simp] theorem State.supervise_mode : (s.supervise p).mode = s.mode := by
  simp only [State.supervise]; split <;> rfl

@[simp] theorem State.supervise_pending : (s.supervise p).pending = s.pending := by
  simp only [State.supervise]; split <;> rfl

@[simp] theorem State.supervise_free : (s.supervise p).free = s.free := by
  simp only [State.supervise]; split <;> rfl

@[simp] theorem State.supervise_restartDue : (s.supervise p).restartDue = s.restartDue := by
  simp only [State.supervise]; split <;> rfl

@[simp] theorem State.supervise_resetInput : (s.supervise p).resetInput = s.resetInput := by
  simp only [State.supervise]; split <;> rfl

@[simp] theorem State.supervise_samplePhase : (s.supervise p).samplePhase = s.samplePhase := by
  simp only [State.supervise]; split <;> rfl

@[simp] theorem State.supervise_ic : (s.supervise p).site.ic = s.site.ic := by
  simp only [State.supervise]; split <;> rfl

@[simp] theorem State.supervise_px : (s.supervise p).site.works.px = s.site.works.px := by
  simp only [State.supervise]; split <;> rfl

@[simp] theorem State.supervise_ts : (s.supervise p).site.works.ts = s.site.works.ts := by
  simp only [State.supervise]; split <;> rfl

@[simp] theorem State.supervise_now : (s.supervise p).now = s.now := by
  simp only [State.supervise]; split <;> rfl

@[simp] theorem State.supervise_chans : (s.supervise p).site.works.plant.chans = s.site.works.plant.chans := by
  simp only [State.supervise]; split <;> rfl

@[simp] theorem State.supervise_demands : (s.supervise p).site.works.plant.demands = s.site.works.plant.demands := by
  simp only [State.supervise]; split <;> rfl

@[simp] theorem State.supervise_incident : (s.supervise p).incident = s.incident := by simp [State.incident]
@[simp] theorem State.supervise_testRunning : (s.supervise p).testRunning = s.testRunning := by simp [State.testRunning]

theorem State.supervise_port_other (q : Port) (h : q ≠ p) : (s.supervise p).port q = s.port q := by
  simp only [State.supervise]; split <;> simp [h]

@[simp] theorem State.reply_site : (s.reply p a).site = s.site := rfl
@[simp] theorem State.reply_pmc : (s.reply p a).pmc = s.pmc := rfl
@[simp] theorem State.reply_mode : (s.reply p a).mode = s.mode := rfl
@[simp] theorem State.reply_pending : (s.reply p a).pending = s.pending := rfl
@[simp] theorem State.reply_free : (s.reply p a).free = s.free := rfl
@[simp] theorem State.reply_restartDue : (s.reply p a).restartDue = s.restartDue := rfl
@[simp] theorem State.reply_resetInput : (s.reply p a).resetInput = s.resetInput := rfl
@[simp] theorem State.reply_samplePhase : (s.reply p a).samplePhase = s.samplePhase := rfl

theorem State.reply_port_other (q : Port) (h : q ≠ p) : (s.reply p a).port q = s.port q :=
  State.modPort_port_other s p _ q h

theorem State.reply_ok (fields : List Byte) :
    (s.reply p (.ok fields)).port p = { s.port p with rx := .replying ⟨none, s.statusFor p, fields⟩ } := by
  simp [State.reply]

theorem State.reply_error (e : Reason) :
    (s.reply p (.error e)).port p = { s.port p with rx := .replying ⟨some e, s.statusFor p, []⟩ } := by
  simp [State.reply]

end

/-! ### The taking of a request -/

section
variable (s : State) (p : Port) (permitted : Port → Bool) (o : Owner)

theorem State.serve_ignored (h : s.taking p = false) : s.serve permitted o p = s := by simp [State.serve, h]

theorem State.serve_notPermitted (h : s.taking p = true) (hp : permitted p = false) :
    s.serve permitted o p = (s.supervise p).reply p (.error .notPermittedOnPort) := by
  simp [State.serve, h, hp]

theorem State.serve_taken (h : s.taking p = true) (hp : permitted p = true) :
    s.serve permitted o p = (o (s.supervise p)).1.reply p (o (s.supervise p)).2 := by
  simp [State.serve, h, hp]

/-- All that the taking of a request can do. -/
theorem State.serve_cases :
    (s.taking p = false ∧ s.serve permitted o p = s)
      ∨ (s.taking p = true ∧ permitted p = false
        ∧ s.serve permitted o p = (s.supervise p).reply p (.error .notPermittedOnPort))
      ∨ (s.taking p = true ∧ permitted p = true
        ∧ s.serve permitted o p = (o (s.supervise p)).1.reply p (o (s.supervise p)).2) := by
  cases h : s.taking p
  · exact .inl ⟨rfl, s.serve_ignored p permitted o h⟩
  · cases hp : permitted p
    · exact .inr (.inl ⟨rfl, rfl, s.serve_notPermitted p permitted o h hp⟩)
    · exact .inr (.inr ⟨rfl, rfl, s.serve_taken p permitted o h hp⟩)

/-- What the owner keeps, the taking of its request keeps: for a part of the state that supervision and a reply leave. -/
theorem State.serve_keeps {β : Type} (part : State → β) (hs : part (s.supervise p) = part s)
    (hr : ∀ (t : State) (a : Answer), part (t.reply p a) = part t) (ho : ∀ t, part (o t).1 = part t) :
    part (s.serve permitted o p) = part s := by
  obtain ⟨-, e⟩ | ⟨-, -, e⟩ | ⟨-, -, e⟩ := s.serve_cases p permitted o
  · rw [e]
  · rw [e, hr, hs]
  · rw [e, hr, ho, hs]

end

end Sys2Proof.Machine
end

