-- ==== Sys2Proof/Laws/Works.lean ====
section
/-!
SUPPORT. What the taking of handed-on changes can do: a property that the Test Sequencer's notes and the Plan Executor's
evaluations keep is kept by every change of the channel side.
-/

namespace Sys2Proof.Machine

/-! ### The Test Sequencer's notes -/

theorem TestSeq.addFinding_test (t : TestSeq) (g : List Finding → List Finding) : (t.addFinding g).test = t.test := by
  unfold TestSeq.addFinding
  split
  · dsimp only
    split <;> rfl
  · rfl

/-- A note changes nothing but the records of the Test Sequencer. -/
theorem Works.takeNote_keeps (w : Works) (n : TestNote) :
    (w.takeNote n).plant = w.plant ∧ (w.takeNote n).px = w.px ∧ (w.takeNote n).ts.test = w.ts.test := by
  cases n <;> (unfold Works.takeNote; dsimp only; split) <;>
    first | exact ⟨rfl, rfl, rfl⟩ | exact ⟨rfl, rfl, TestSeq.addFinding_test _ _⟩

theorem Works.takeNotes_fold (l : List TestNote) (w : Works) :
    (l.foldl Works.takeNote w).plant = w.plant ∧ (l.foldl Works.takeNote w).px = w.px
      ∧ (l.foldl Works.takeNote w).ts.test = w.ts.test := by
  induction l generalizing w with
  | nil => exact ⟨rfl, rfl, rfl⟩
  | cons n l ih =>
    obtain ⟨h, i, j⟩ := ih (w.takeNote n)
    obtain ⟨h', i', j'⟩ := w.takeNote_keeps n
    exact ⟨h.trans h', i.trans i', j.trans j'⟩

/-- The notes taken, none is left, and the channel side and the contexts stand as they were. -/
theorem Works.takeNotes_keeps (w : Works) :
    w.takeNotes.plant = { w.plant with notes := [] } ∧ w.takeNotes.px = w.px ∧ w.takeNotes.ts.test = w.ts.test :=
  Works.takeNotes_fold _ _

/-! ### Settling -/

/-- What each round and each taking of notes keeps, settling keeps. -/
theorem Works.settleFor_keeps (P : Works → Prop) (m : Pmc) (order : List ZoneId) (hn : ∀ w, P w → P w.takeNotes)
    (hr : ∀ w, P w → P (w.round m order)) (n : Nat) (w : Works) (h : P w) : P (w.settleFor m order n) := by
  induction n generalizing w with
  | zero => exact h
  | succ n ih =>
    simp only [Works.settleFor]
    split
    · exact hn w h
    · exact ih _ (hr _ (hn w h))

theorem Works.settle_keeps (P : Works → Prop) (m : Pmc) (order : List ZoneId) (hn : ∀ w, P w → P w.takeNotes)
    (hr : ∀ w, P w → P (w.round m order)) (w : Works) (h : P w) : P (w.settle m order) :=
  Works.settleFor_keeps P m order hn hr settleRounds w h

/-- What taking up the changed channels and each zone's evaluation keep, a round keeps. -/
theorem Works.round_keeps (P : Works → Prop) (m : Pmc) (order : List ZoneId)
    (hd : ∀ w, P w → P { w with plant := { w.plant with pxDue := [] } }) (hj : ∀ z w, P w → P (w.judge m order z))
    (w : Works) (h : P w) : P (w.round m order) := by
  unfold Works.round
  dsimp only
  generalize Works.judges order { w with plant := { w.plant with pxDue := [] } } = l
  have h0 := hd w h
  revert h0
  generalize ({ w with plant := { w.plant with pxDue := [] } } : Works) = v
  intro h0
  induction l generalizing v with
  | nil => exact h0
  | cons z l ih =>
    rw [List.foldl_cons]
    apply ih
    split
    · exact hj z v h0
    · exact h0

/-! ### Changes of the whole state -/

section
variable (s : State) (g : Plant → Plant) (h : Pmc → List ZoneId → Works → Works) (f : Pmc → Site → Site)

@[simp] theorem State.onWorks_ic : (s.onWorks h).site.ic = s.site.ic := rfl
@[simp] theorem State.onWorks_pmc : (s.onWorks h).pmc = s.pmc := rfl
@[simp] theorem State.onWorks_ports : (s.onWorks h).ports = s.ports := rfl
@[simp] theorem State.onWorks_mode : (s.onWorks h).mode = s.mode := rfl
@[simp] theorem State.onWorks_pending : (s.onWorks h).pending = s.pending := rfl
@[simp] theorem State.onPlant_ic : (s.onPlant g).site.ic = s.site.ic := rfl
@[simp] theorem State.onPlant_pmc : (s.onPlant g).pmc = s.pmc := rfl
@[simp] theorem State.onPlant_ports : (s.onPlant g).ports = s.ports := rfl
@[simp] theorem State.onPlant_mode : (s.onPlant g).mode = s.mode := rfl
@[simp] theorem State.onPlant_pending : (s.onPlant g).pending = s.pending := rfl

@[simp] theorem State.onSite_site : (s.onSite f).site = f s.pmc s.site := by
  unfold State.onSite; dsimp only; split <;> rfl

@[simp] theorem State.onSite_ports : (s.onSite f).ports = s.ports := by
  unfold State.onSite; dsimp only; split <;> rfl

@[simp] theorem State.onSite_mode : (s.onSite f).mode = s.mode := by
  unfold State.onSite; dsimp only; split <;> rfl

@[simp] theorem State.onSite_pending : (s.onSite f).pending = s.pending := by
  unfold State.onSite; dsimp only; split <;> rfl

/-- Plan memory takes incident start exactly where the fire order becomes non-empty (R18). -/
theorem State.onSite_pmc :
    (s.onSite f).pmc = if s.site.ic.fireOrder = [] ∧ (f s.pmc s.site).ic.fireOrder ≠ [] then
      s.pmc.incidentStart (f s.pmc s.site).works.plant.now else s.pmc := by
  unfold State.onSite
  dsimp only
  by_cases h : s.site.ic.fireOrder = [] <;> by_cases k : (f s.pmc s.site).ic.fireOrder = [] <;>
    simp [h, k, List.isEmpty_iff]

end

end Sys2Proof.Machine
end

