-- ==== Sys2Proof/Tests/Slice0.lean ====
section
/-!
SUPPORT. Tests of the model: the well-formedness checks, what bytes spell, one step of each kind of command, and a witness
for the hypotheses of each statement.
-/

namespace Sys2Proof.Tests

open Sys2Proof.Machine

-- One theorem after another: their kernel evaluations side by side would take too much memory.
set_option Elab.async false

/-! ### Small states -/

/-- The state that a command leaves. -/
def after (i : Instr) (s : State) : State :=
  match exec i s with
  | .next t => t
  | _ => s

/-- Every port hunting again, its reply sent. -/
def heard (s : State) : State := { s with ports := s.ports.map fun r => { r with rx := .hunting } }

def tell (i : Instr) (s : State) : State := heard (after i s)

def allLines : LineSet := ⟨true, true, true, true⟩

/-- Z1 with its own plan in block 1 and compatible with Z2; Z2 and Z3 without plans; Z4 for AL1 alone. -/
def zone1 : ZoneCfg := ⟨true, some 1, allLines, [1], 60, true⟩
def zone2 : ZoneCfg := ⟨true, none, allLines, [], 60, false⟩
def zone4 : ZoneCfg := ⟨true, none, ⟨true, false, false, false⟩, [0], 60, true⟩

def path1 : Damper := ⟨⟨.path, none, .closed, .closed, 10, 0⟩, .atClosed, .closed, false, none, none, none⟩
def inlet4 : Damper := ⟨⟨.inlet, some 0, .closed, .closed, 10, 800⟩, .atClosed, .closed, false, none, none, none⟩
def fan2 : Fan := ⟨⟨none, 6000, 300, 100, 10, 20, [0]⟩, .stopped, .off, .rest, 0, 0, 0, false, none, none, none, none, false⟩
def fan3 : Fan :=
  ⟨⟨some 0, 10000, 300, 100, 10, 20, []⟩, .stopped, .off, .rest, 0, 0, 0, false, none, none, none, none, false⟩

def atClosedEnd : ChanInputs := ⟨Input.settle false, Input.settle true⟩

/-- Block 1 holds a plan of two steps: A01 OPEN, proven; then A02 ON at 500. -/
def planBytes : List Host.Cell :=
  Memory.writeAll (Memory.writeAll (Memory.writeAll [] 4096 [2#8])
    4224 [0#8, 1#8, 0#8, 20#8, 1#8, 1#8, 0#8, 1#8, 0#8, 0#8])
    4352 [0#8, 0#8, 0#8, 30#8, 1#8, 2#8, 3#8, 1#8, 1#8, 0xF4#8]

def planBlock : Block :=
  ⟨(((Table.all 32 .unwritten).put 0 .written).put 1 .written).put 2 .written, false, some (.sound 0), .valid, .locked⟩

/-- A small mall: A01 a path damper at its closed end, A02 a fan behind it, A03 a fan of group G1 with inlet A04. -/
def mall : State :=
  let s := State.reset
  let x := s.site.works.plant
  { s with
    site :=
      { s.site with
        works := { s.site.works with plant := { x with
          chans := (((x.chans.put 0 (.damper path1)).put 1 (.fan fan2)).put 2 (.fan fan3)).put 3 (.damper inlet4)
          inputs := (x.inputs.put 0 atClosedEnd).put 3 atClosedEnd
          groups := x.groups.put 0 ⟨100, 500⟩
          now := 1000 } }
        ic := { s.site.ic with cfg := (((s.site.ic.cfg.put 0 zone1).put 1 zone2).put 2 zone2).put 3 zone4 } }
    pmc := { s.pmc with mem := planBytes, blocks := s.pmc.blocks.put 1 planBlock } }

/-- An incident led by Z1. -/
def fire : State := tell (.alarm (.alarm .al1) (.fields 1)) mall


/-- A test of Z1 in progress. -/
def tested : State := tell (.testZone .bl (.fields ⟨1, 60⟩)) mall

def holding : State :=
  tested.onWorksOnly fun w => { w with ts := { w.ts with test := some ⟨0, 60, .hold 5000⟩ } }

/-- A silent alarm line and a silent BL. -/
def silent : State := after (.supervisionWindowExpiry .bl) (after (.supervisionWindowExpiry (.alarm .al1)) mall)

/-- The state with plan memory changed. -/
def withPmc (g : Pmc → Pmc) (s : State) : State := { s with pmc := g s.pmc }

def commissioned : State := withPmc (fun m => { m with commissioning := Input.settle true }) mall
def unlocked5 : State := tell (.unlock .bl (.fields 5)) commissioned
def blankRecord : List Byte := List.replicate 128 0x11#8
def writing : State := tell (.writeRecord .bl (.fields ⟨5, 0, blankRecord⟩)) unlocked5
def written5 : State := tell .writeCompletion writing

def setupOf5 : State := tell (.eraseSetup .bl (.fields 5)) unlocked5
def erasing : State := tell (.eraseConfirm .bl (.fields 5)) setupOf5
def suspended : State := tell (.suspend .bl (.fields ())) erasing

/-- Z2 behind Z1; and Z3 locked out behind both. -/
def fire2 : State := tell (.alarm (.alarm .al2) (.fields 2)) fire
def locked3 : State := tell (.alarm (.alarm .al2) (.fields 3)) fire2
/-- Z3 locked out behind Z1, which leads alone. -/
def behind1 : State := tell (.alarm (.alarm .al2) (.fields 3)) fire
def purging : State := tell (.restore (.alarm .al1) (.fields 1)) fire
def extracted : State := tell (.setZoneMode .ff (.fields ⟨2, .extract⟩)) fire2
def heldOff : State := tell (.setZoneMode .ff (.fields ⟨1, .off⟩)) fire2

/-- The damper of step 1 arrives 1 ms after the alarm, its dwell still running; the fan of step 2 starts; it runs; it stops. -/
def dwelling : State := after (.switchChange 0 true false) fire
def starting : State := after (.dwellExpiry 0) dwelling
def running : State := after (.proofArrives 1) starting
def stopping : State := after (.switchChange 0 false false) running

/-- A manual demand on the fan of G1, which is then granted at once; a fan that waits for the stagger timer. -/
def manual : State := tell (.setOverride .ff (.fields ⟨3, .on, 200⟩)) mall
def waiting : State := tell (.setOverride .ff (.fields ⟨3, .on, 200⟩)) starting
def granted : State := after .staggerExpiry waiting

/-- The inlet of G1 opens and its fan, at normal demand 500, is granted: a scaled fan of a checked group runs. -/
def scaled : State :=
  tell (.setNormal .bl (.fields ⟨3, .on, 500⟩))
    (after (.switchChange 3 true false) (tell (.setNormal .bl (.fields ⟨4, .opened, 0⟩)) mall))

/-- FF's queue empty and BL's holding 31 reports. -/
def queued31 (s : State) : State :=
  s.onWorksOnly fun w => w.onPlant fun x =>
    { x with ffReports := ⟨[], 0⟩, blReports := ⟨List.replicate 31 ⟨.controllerStarted, 0, none, none, none⟩, 0⟩ }

/-- An alarm while an erase is under way. -/
def caught : State := tell (.alarm (.alarm .al1) (.fields 1)) erasing

/-- Block 1 OPEN and UNLOCKED again, and a commit of it under way. -/
def committing : State :=
  tell (.commit .bl (.fields 1)) (withPmc (fun m => m.setBlock 1
    { planBlock with commitMark := none, state := .opened, lock := .unlocked }) commissioned)

/-- A damper state and a fan state put into a channel of the mall. -/
def withDamper (d : Damper) (i : ChanInputs) : State :=
  mall.onWorksOnly fun w => w.onPlant fun x => { x.setChan 0 (.damper d) with inputs := x.inputs.put 0 i }

def withFan (f : Fan) (proof : Bool) : State :=
  mall.onWorksOnly fun w => w.onPlant fun x =>
    { x.setChan 1 (.fan f) with inputs := x.inputs.put 1 ⟨Input.settle proof, Input.released⟩ }

/-! ### Well-formedness: an ill-formed command for each check -/

theorem test_wf_numbers_fit_a_byte :
    [Instr.alarm .ff (.fields 256), .restore .ff (.fields 256), .clearFault .ff (.fields 256), .eraseSetup .bl (.fields 300),
      .eraseConfirm .bl (.fields 300), .commit .bl (.fields 256), .lock .bl (.fields 256), .lockDown .bl (.fields 256),
      .unlock .bl (.fields 256), .readReports .bl (.fields 256), .groupTableRead .bl (.fields 256),
      .setZoneMode .ff (.fields ⟨256, .auto⟩), .readRecord .bl (.fields ⟨256, 0⟩), .readRecord .bl (.fields ⟨0, 256⟩),
      .zoneTableRead .ff (.fields (.range 256 1)), .zoneTableRead .ff (.fields (.range 1 256)),
      .zoneTableRead .ff (.fields (.step 256 1)), .zoneTableRead .ff (.fields (.step 1 256)),
      .actuatorTableRead .ff (.fields ⟨256, 1⟩), .actuatorTableRead .ff (.fields ⟨1, 256⟩),
      .testRecordRead .ff (.fields ⟨256, .summary, 0⟩), .testRecordRead .ff (.fields ⟨1, .summary, 256⟩),
      .setOverride .ff (.fields ⟨256, .on, 0⟩), .setNormal .bl (.fields ⟨256, .on, 0⟩), .testZone .bl (.fields ⟨256, 10⟩),
      .writeRecord .bl (.fields ⟨256, 0, blankRecord⟩), .writeRecord .bl (.fields ⟨0, 256, blankRecord⟩)].all
      (fun i => !i.wf) = true := by decide +kernel

theorem test_wf_speeds_and_holds_fit_two_bytes :
    [Instr.setOverride .ff (.fields ⟨1, .on, 65536⟩), .setNormal .bl (.fields ⟨1, .on, 65536⟩),
      .testZone .bl (.fields ⟨1, 65536⟩)].all (fun i => !i.wf) = true := by decide

theorem test_wf_a_record_has_128_bytes :
    (Instr.writeRecord .bl (.fields ⟨0, 0, [0#8]⟩)).wf = false
      ∧ (Instr.writeRecord .bl (.fields ⟨0, 0, blankRecord⟩)).wf = true := by decide +kernel

theorem test_wf_an_unknown_code_is_none_of_the_requests :
    (Instr.unknownRequestCode .ff 0x10#8).wf = false ∧ (Instr.unknownRequestCode .ff 0x4E#8).wf = true := by decide

theorem test_wf_bodies_and_events :
    (Instr.poll .ff (.fields ())).wf = true ∧ (Instr.alarm .ff .malformed).wf = true ∧ Instr.slewUpdate.wf = true := by decide

/-! ### Bytes (R145, R171, R172) -/

/-- The check value of R145: the CRC over the nine characters 123456789 is 29B1h. -/
theorem test_crc_check_value :
    crc16 [0x31#8, 0x32#8, 0x33#8, 0x34#8, 0x35#8, 0x36#8, 0x37#8, 0x38#8, 0x39#8] = 0x29B1 := by decide +kernel

theorem test_bodies_decode_to_their_requests :
    decodeRequest (.alarm .al3) [0x10#8, 11#8] = some (.alarm (.alarm .al3) (.fields 11))
      ∧ decodeRequest .ff [0x21#8, 7#8, 0x03#8, 0x02#8, 0x58#8] = some (.setOverride .ff (.fields ⟨7, .on, 600⟩))
      ∧ decodeRequest .bl [0x31#8, 4#8, 0x00#8, 0x3C#8] = some (.testZone .bl (.fields ⟨4, 60⟩))
      ∧ decodeRequest .bl [0x49#8, 63#8, 17#8] = some (.readRecord .bl (.fields ⟨63, 17⟩))
      ∧ decodeRequest .ff [0x60#8, 5#8, 2#8, 0xFF#8] = some (.zoneTableRead .ff (.fields (.step 5 2)))
      ∧ decodeRequest .bl [0x4E#8] = some (.unknownRequestCode .bl 0x4E#8)
      ∧ decodeRequest .ff [0x20#8, 3#8, 0x03#8] = some (.setZoneMode .ff .malformed)
      ∧ decodeRequest .bl [0x50#8, 8#8] = some (.readReports .bl (.fields 8)) := by decide +kernel

/-- The table of opcode_table.json spells no row by bits. -/
theorem test_no_word_spells_a_command : decodeTableWord 8 0x10 = none := rfl

/-! ### Numbers of the spec -/

/-- The table of averages of R78, from 20,000 ms on. -/
theorem test_averages_of_R78 :
    [newAverage 20000 24000, newAverage 21000 19000, newAverage 20500 20503, newAverage 20500 20497, newAverage 20500 20493]
      = [21000, 20500, 20500, 20500, 20499] := by decide +kernel

/-- The slow flag of R78 with a travel limit of 60 s and of 45 s. -/
theorem test_slow_flag_of_R78 :
    [isSlow 45000 60, isSlow 45001 60, isSlow 33750 45, isSlow 33751 45] = [false, true, false, true] := by decide +kernel

/-- The slew steps of R94: 15 per mille per second moves as 10 does; the last step does not pass the applied speed. -/
theorem test_slew_steps_of_R94 :
    [slewStep 15 600 900, slewStep 10 600 900, slewStep 125 888 900, slewStep 500 900 870, slewStep 50 900 900]
      = [601, 601, 900, 870, 900] := by decide +kernel

/-- The capacities of R106. -/
theorem test_capacities_of_R106 :
    [100 * 100 * 800, 100 * 250 * 2000] = [8000000, 50000000]
      ∧ ((mall.onWorksOnly fun w => w.onPlant fun x => x.setChan 3 (.damper { inlet4 with state := .atOpen })).plant.figures
        0).capacity = 8000000 := by decide +kernel

/-- The speeds of R54 for a fan with minimum speed 300. -/
theorem test_speeds_of_R54 :
    [rangedOn 300 0, rangedOn 300 1, rangedOn 300 300, rangedOn 300 301, rangedOn 300 1000, rangedOn 300 65535]
      = [.off, .on 300, .on 300, .on 301, .on 1000, .on 1000] := by decide

/-- The first two situations of the worked case of chapter 6: both inlets open, then I2 lost. -/
theorem test_allocation_of_the_worked_case :
    let fans : List ScaledFan := [⟨0, 12000, 600, 900⟩, ⟨1, 10000, 400, 1000⟩]
    allocate fans 20000000 = [(0, 865), (1, 961)] ∧ allocate fans 12000000 = [(0, 600), (1, 480)]
      ∧ allocate fans 20800000 = [(0, 900), (1, 1000)] := by decide +kernel

/-- The reset line of the table of R143: what each content classifies as. -/
theorem test_classification_of_R143 :
    mall.pmc.classify 7 = .blank
      ∧ (mall.pmc.modBlock 7 fun b => { b with eraseMark := true }).classify 7 = .corrupt
      ∧ (mall.pmc.modBlock 7 fun b => { b with conds := b.conds.put 3 .incomplete }).classify 7 = .opened
      ∧ (mall.pmc.modBlock 7 fun b => { b with commitMark := some .damaged }).classify 7 = .corrupt := by decide +kernel

/-! ### One step of each kind of command -/

theorem test_alarm_starts_the_incident :
    (fire.site.ic.fireOrder, (fire.zone 0).state, (fire.zone 0).rank, fire.plant.demands.look 0)
      = ([0], .active, some 1, [⟨.fire, .zone 0, .damper .opened⟩]) := by decide +kernel

/-- Z2 is in the compatible set of the lead zone Z1; Z3 is not (R7). -/
theorem test_alarms_behind_the_lead :
    fire2.site.ic.fireOrder = [0, 1] ∧ locked3.site.ic.lockedOut = [2] ∧ (locked3.zone 2).state = .lockedOut := by
  decide +kernel

theorem test_restore_begins_the_purge :
    ((purging.zone 0).state, (purging.zone 0).purge) = (.restoring, some 61000) := by decide +kernel

theorem test_purge_expiry_ends_the_incident :
    ((after (.purgeExpiry 0) purging).site.ic.fireOrder, (after (.purgeExpiry 0) purging).plant.demands.look 0)
      = ([], []) := by decide +kernel

/-- EXTRACT moves Z2 ahead of Z1; it takes the next rank (R13). -/
theorem test_extract_moves_a_zone_to_the_head :
    (extracted.site.ic.fireOrder, (extracted.zone 1).origin, (extracted.zone 1).rank) = ([1, 0], some .ff, some 3) := by
  decide +kernel

theorem test_off_and_auto :
    (heldOff.zone 0).state = .heldOff ∧ heldOff.site.ic.fireOrder = [1]
      ∧ (after (.setZoneMode .ff (.fields ⟨1, .auto⟩)) heldOff).site.ic.lockedOut = [0] := by decide +kernel

/-- The worked overrides of chapter 3 on a fan with minimum speed 300. -/
theorem test_overrides_on_a_fan :
    (manual.plant.demands.look 2, (after (.setOverride .ff (.fields ⟨3, .release, 0⟩)) manual).plant.demands.look 2)
      = ([⟨.manual, .ff, .fan (.on 300)⟩], []) := by decide +kernel

theorem test_set_normal_and_its_refusal_in_an_incident :
    (after (.setNormal .bl (.fields ⟨1, .opened, 0⟩)) mall).plant.demands.look 0 = [⟨.normal, .bl, .damper .opened⟩]
      ∧ ((after (.setNormal .bl (.fields ⟨1, .opened, 0⟩)) fire).port .bl).rx
        = .replying ⟨some .fireMode, ⟨true, true, some 0, some (5, 0)⟩, []⟩ := by decide +kernel

/-- An arrival captures the travel time and ends no step whose dwell still runs (R70, R78, R35). -/
theorem test_arrival_of_a_damper :
    (dwelling.plant.chans.look 0, dwelling.plant.stats.look 0)
      = (.damper ⟨path1.cfg, .atOpen, .opened, true, none, none, none⟩, ⟨some 1, some 1, 1, false⟩) := by decide +kernel

/-- A change of one switch ends no run of differing samples of the other (R66). -/
theorem test_a_switch_keeps_its_own_samples :
    let s := fire.onWorksOnly fun w => w.onPlant fun x =>
      { x with inputs := x.inputs.put 0 ⟨⟨true, false, 2⟩, ⟨false, true, 1⟩⟩ }
    (after (.switchChange 0 true true) s).plant.inputs.look 0 = ⟨⟨true, true, 0⟩, ⟨false, true, 1⟩⟩ := by decide +kernel

/-- A travel of more than 2^32 ms is slow by the real time it took (R75, R78). -/
theorem test_an_overlong_travel_is_slow :
    let s := fire.onWorksOnly fun w => w.onPlant fun x => { x with now := 5000000000 }
    ((after (.switchChange 0 true false) s).plant.stats.look 0).slow = true := by decide +kernel

theorem test_travel_timer_expiry_is_a_fault :
    ((after (.travelTimerExpiry 0) fire).plant.damper? 0).map (fun d => (d.state, d.timer, d.cause))
      = some (.travelFault, none, some .command) := by decide +kernel

/-- The dwell of step 1 expires with the damper proven: step 2 posts the fan, which starts at once (R35, R38, R99). -/
theorem test_dwell_expiry_posts_the_next_step :
    ((starting.site.works.ctx 0).map fun c => (c.step, c.outcomes)) = some (2, [⟨.complete, [], []⟩])
      ∧ (starting.plant.fan? 1).map (fun f => (f.state, f.present, f.applied, f.proofTimer))
        = some (.starting, 300, 500, some 12000) ∧ starting.plant.stagger = some 7000 := by decide +kernel

theorem test_step_timeout_leaves_the_unproven_actuator :
    ((after (.stepTimeoutExpiry 0) fire).site.works.ctx 0).map (fun c => (c.step, c.outcomes))
      = some (2, [⟨.incomplete, [], [0]⟩]) := by decide +kernel

theorem test_proof_and_its_loss :
    ((running.plant.fan? 1).map (·.state), ((after (.proofLost 1) running).plant.fan? 1).map (·.state))
      = (some .running, some .runFault) := by decide +kernel

theorem test_fan_timers :
    ((after (.proofTimerExpiry 1) starting).plant.fan? 1).map (fun f => (f.state, f.faultCause))
        = some (.runFault, some .noProof)
      ∧ ((after (.runDownExpiry 1) stopping).plant.fan? 1).map (·.state) = some .stopFault := by decide +kernel

/-- The speed reference has taken its staged duty by the time the proof timer expires (R84). -/
theorem test_the_speed_reference_follows :
    ((starting.plant.fan? 1).map (·.duty), ((after (.proofTimerExpiry 1) starting).plant.fan? 1).map (·.duty))
      = (some 0, some 300) := by decide +kernel

/-- The fan slews from 300 by floor(100 ÷ 10) per update (R94). -/
theorem test_slew_update : ((after .slewUpdate running).plant.fan? 1).map (·.present) = some 310 := by decide +kernel

/-- A path damper drifts off its open end: the fan is tripped, with its report after the damper's (R88). The BL queue at its
limit keeps the first of the two reports (R158, the example of chapter 10). -/
theorem test_interlock_trip_at_the_queue_limit :
    let t := after (.switchChange 0 false false) (queued31 running)
    (t.plant.fan? 1).map (fun f => (f.state, f.stopCause)) = some (.stopping, some .interlock)
      ∧ (t.plant.blReports.reports.length, t.plant.blReports.loss) = (32, 1)
      ∧ (t.plant.ffReports.reports.map (·.kind), t.plant.ffReports.loss) = ([.damperState, .interlockTrip], 0) := by
  decide +kernel

theorem test_clear_fault_drives_again :
    ((after (.clearFault .ff (.fields 1)) (after (.travelTimerExpiry 0) fire)).plant.damper? 0).map (fun d => (d.state, d.timer))
      = some (.opening, some 21000) := by decide +kernel

theorem test_stagger_expiry_grants :
    (granted.plant.queue, (granted.plant.fan? 2).map (·.state)) = ([], some .starting) := by decide +kernel

/-- The inlet of G1 is shut, so the manual fan alone runs; a scaled fan waits for the margin (R112). -/
theorem test_a_scaled_fan_waits_for_capacity :
    let t := after (.setNormal .bl (.fields ⟨3, .on, 500⟩)) mall
    (t.plant.fan? 2).map (·.state) = some .waitPermit ∧ t.plant.queue = [⟨2, 1000, .new⟩] := by decide +kernel

theorem test_a_test_begins_and_is_aborted_by_an_alarm :
    (tested.zone 0).state = .testing
      ∧ ((after (.alarm (.alarm .al1) (.fields 2)) tested).site.works.ts.records.look 0).cause = some .alarm
      ∧ ((after (.abortTest .bl (.fields ())) tested).site.works.ts.records.look 0).outcome = .aborted := by decide +kernel

theorem test_hold_expiry_passes :
    (let r := (after .holdExpiry holding).site.works.ts.records.look 0; (r.outcome, r.stop)) = (.pass, some 5000) := by
  decide +kernel

/-- Erase confirm without its setup sets SEQUENCE (R132); a request then finds the status uncleared. -/
theorem test_sequence_flag :
    let t := after (.eraseConfirm .bl (.fields 5)) unlocked5
    t.pmc.flags.sequence = true
      ∧ ((after (.eraseSetup .bl (.fields 5)) (heard t)).port .bl).rx
        = .replying ⟨some .statusUncleared, ⟨true, false, none, some (2, 0)⟩, []⟩ := by decide +kernel

theorem test_erase_and_write_complete :
    (let b := (after (.eraseCompletion true) erasing).pmc.block 5; (b.state, b.eraseMark)) = (.blank, false)
      ∧ (written5.pmc.cond 5 0, (written5.pmc.block 5).state, Memory.read written5.pmc.mem 20480)
        = (.written, .opened, 0x11#8) := by decide +kernel

/-- An alarm suspends an erase under way; RESUME is refused in the incident and the input going off locks the target (R139,
R141). -/
theorem test_an_incident_suspends_an_erase :
    caught.pmc.ctrl.isBusy = false ∧ caught.pmc.ctrl.target = some 5
      ∧ ((after .commissioningInputOff caught).pmc.block 5).lock = .locked := by decide +kernel

theorem test_commit_needs_a_valid_plan :
    (after (.commit .bl (.fields 5)) written5).pmc.flags.planInvalid = true
      ∧ ((after .commitCompletion committing).pmc.block 1).state = .valid := by decide +kernel

theorem test_plan_reads :
    ((after (.readRecord .bl (.fields ⟨1, 3⟩)) mall).port .bl).rx
        = .replying ⟨none, ⟨true, false, none, some (2, 0)⟩, 0#8 :: List.replicate 128 0xFF#8⟩
      ∧ ((after (.planStatus .bl (.fields ())) setupOf5).port .bl).rx
        = .replying ⟨none, ⟨true, false, none, some (2, 0)⟩, [1#8, 2#8, 0#8, 5#8, 0#8, 0#8, 0#8, 0#8, 0#8, 1#8]⟩ := by
  decide +kernel

/-- A report of R174: ZONE_STATE of Z1, ACTIVE, cause ALARM, and its 15 bytes. -/
theorem test_report_bytes :
    Report.bytes ⟨.zoneState, 1000, some (.zone 0), some (.zone .active), some (.zoneCause .alarm)⟩
      = [0#8, 0#8, 0#8, 3#8, 0xE8#8, 1#8, 1#8, 2#8, 0#8, 0#8, 7#8, 0#8, 0#8, 0#8, 0#8] := by decide +kernel

theorem test_reads_of_tables :
    ((after (.actuatorTableRead .ff (.fields ⟨64, 64⟩)) mall).port .ff).rx
        = .replying ⟨none, ⟨true, false, none, some (2, 0)⟩, [1#8, 1#8, 64#8, 2#8] ++ List.replicate 22 0#8⟩
      ∧ ((after (.linkTableRead .bl (.fields ())) silent).port .bl).rx
        = .replying ⟨none, ⟨true, false, none, some (5, 0)⟩,
            [1#8, 10#8, 0#8, 0#8, 10#8, 0#8, 0#8, 10#8, 0#8, 0#8, 10#8, 0#8, 0#8, 10#8, 0#8, 0#8, 30#8, 0#8]⟩ := by
  decide +kernel

/-- POLL reports the count of CRC failures and clears it (R147, R151); an alarm line is told the fire order. -/
theorem test_poll_reports_and_clears_the_errors :
    let t := after (.poll (.alarm .al1) (.fields ())) (after (.crcFailure (.alarm .al1)) fire)
    (t.port (.alarm .al1)).errors = 0
      ∧ (t.port (.alarm .al1)).rx = .replying ⟨none, ⟨true, true, some 0, none⟩, [1#8, 1#8, 1#8, 0#8]⟩ := by decide +kernel

theorem test_silence_and_return_of_a_line :
    (silent.port (.alarm .al1)).link = .silent
      ∧ ((after (.ackRestart (.alarm .al1) (.fields ())) silent).port (.alarm .al1)).link = .online
      ∧ ((after (.ackRestart (.alarm .al1) (.fields ())) silent).port (.alarm .al1)).restart = false := by decide +kernel

/-- The noise of the worked sequence of chapter 9, 17h D3h D3h 2Ch: LEN is awaited. -/
theorem test_hunting_through_noise :
    (match bytesArrive (.alarm .al3) [0x17#8, 0xD3#8, 0xD3#8, 0x2C#8] mall with
      | .next t => (t.port (.alarm .al3)).rx
      | _ => .hunting) = .inFrame .len 1000 := by decide +kernel

theorem test_the_end_of_a_restart_controller_reply :
    (after (.replySent .bl) (after (.restartController .bl (.fields ())) mall)).mode = .startUp .restartRequest false 0 := by
  decide +kernel

/-- A power-on reset and its start-up operation on a blank array leave what `State.reset` holds (R165, R166). -/
theorem test_start_up_after_power_on :
    let t := after .startUpOperation (after .powerOnReset State.reset)
    t.mode = .running ∧ t.plant.ffReports = State.resetReports ∧ t.ports = State.reset.ports
      ∧ t.plant.groups = State.reset.plant.groups ∧ (t.pmc.block 63).state = .blank := by decide +kernel

theorem test_a_reset_cuts_off_a_commit :
    (after .startUpOperation (after .resetInputReleased (after .resetInputAsserted committing))).pmc.block 1
      = { planBlock with commitMark := some .damaged, state := .corrupt } := by decide +kernel

/-! ### Witnesses: what meets the hypotheses of each statement -/

/-- A command waits alone in the queue. -/
def queued (i : Instr) (s : State) : State := { s with pending := [i] }

/-- The sites on which ALARM, RESTORE and SET ZONE MODE judge the zone. -/
def alarmed (s : State) (l : Line) (z : ZoneId) : Site :=
  ((s.supervise (.alarm l)).site.abortTest s.pmc .alarm).modZone z fun r => { r with holders := r.holders.add l }
def restored (s : State) (l : Line) (z : ZoneId) : Site :=
  (s.supervise (.alarm l)).site.modZone z fun r => { r with holders := r.holders.remove l }
def moded (s : State) (mode : ZoneMode) (z : ZoneId) : Site :=
  ((s.supervise .ff).site.abortTest s.pmc .ff).modZone z fun r => { r with ffMode := mode }

/-! The invariants in a form that the kernel decides. -/

abbrev consistently (x : Site) : Prop :=
  x.ic.fireOrder.Nodup ∧ x.ic.lockedOut.Nodup ∧ (∀ z, z ∈ x.ic.fireOrder ↔ (x.zone z).state.inFire = true)
    ∧ (∀ z, z ∈ x.ic.lockedOut ↔ (x.zone z).state = .lockedOut)
    ∧ (∀ z, (x.zone z).origin.isSome = true ↔ z ∈ x.ic.fireOrder)
    ∧ (∀ z, (x.zone z).rank.isSome = true ↔ z ∈ x.ic.fireOrder)
    ∧ (∀ z, (x.zone z).purge.isSome = true ↔ (x.zone z).state = .restoring)
    ∧ (∀ z, (x.works.ctx z).isSome = true ↔ (x.zone z).state.executes = true)
    ∧ (∀ z, (x.zone z).state = .testing ↔ x.works.ts.test.map Test.zone = some z)
    ∧ x.ic.rank ≤ Config.max32 ∧ (∀ z ∈ x.ic.fireOrder, x.ic.rankOf z ≤ x.ic.rank)
    ∧ (x.ic.fireOrder = [] → x.ic.lockedOut = [])

theorem consistent_of {s : State} (h : consistently s.site) : s.ZonesConsistent := by
  obtain ⟨h1, h2, h3, h4, h5, h6, h7, h8, h9, h10, h11, h12⟩ := h
  exact fun _ => ⟨h1, h2, h3, h4, h5, h6, h7, h8, by simpa [Option.map_eq_some_iff] using h9, h10, h11, h12⟩

def heldBy (w : Works) (a : ActId) (e : Demand) : Bool :=
  match e.orig with
  | .ff => e.cls == .manual
  | .bl => e.cls == .normal
  | .zone z => (w.ctx z).any fun c => e.cls == c.cls.demand && decide ((a, e.pos) ∈ c.posted)

def postedRight (x : Site) (z : ZoneId) : Bool :=
  (x.works.ctx z).all fun c => decide (c.posted.map Prod.fst).Nodup
    && decide (∀ r ∈ c.posted, ∃ e ∈ x.works.plant.demands.look r.1, e.orig = .zone z)
    && decide (c.cls = .test ↔ (x.zone z).state = .testing)

abbrev demandsRightly (x : Site) : Prop :=
  (∀ a, (x.works.plant.demands.look a).Pairwise fun d e => demandKey x.ic.fireOrder d < demandKey x.ic.fireOrder e)
    ∧ (∀ a, ((x.works.plant.demands.look a).map Demand.orig).Nodup)
    ∧ (∀ a, ∀ e ∈ x.works.plant.demands.look a, heldBy x.works a e = true) ∧ ∀ z, postedRight x z = true

theorem demandsRight_of {s : State} (h : demandsRightly s.site) : s.DemandsRight := by
  obtain ⟨h1, h2, h3, h4⟩ := h
  have right (z : ZoneId) (c : Ctx) (hc : s.site.works.ctx z = some c) := h4 z
  refine fun _ => ⟨h1, h2, fun a e he => ?_, fun z c hc => ?_, fun z c hc => ?_, fun z c hc => ?_⟩
  · have h := h3 a e he
    unfold heldBy at h
    unfold Works.Held
    split at h <;> simp_all [Option.any_eq_true]
  all_goals
    have h := h4 z
    simp only [postedRight, hc, Option.all_some, Bool.and_eq_true, decide_eq_true_eq] at h
  · exact h.1.1
  · exact h.1.2
  · exact h.2

def targetRight (x : Plant) (a : ActId) : Bool :=
  match x.chans.look a with
  | .damper d => (x.resolved a).any fun r => r.pos == .damper d.target
  | .fan f => decide (f.cfg.minSpeed ≤ 1000) && (x.resolved a).any fun r => r.pos == .fan f.target && r.cls == f.cls
  | .unassigned => true

abbrev targetsRightly (x : Plant) : Prop :=
  (∀ a, ∀ e ∈ x.demands.look a, (x.chans.look a).admits e.pos = true) ∧ ∀ a, targetRight x a = true

theorem targets_of {s : State} (h : targetsRightly s.plant) : s.TargetsFollow := by
  obtain ⟨h1, h2⟩ := h
  refine fun _ => ⟨fun a f hf => ?_, h1, fun a d hd => ?_, fun a f hf => ?_⟩
  · have h := h2 a
    simp [targetRight, hf] at h
    exact h.1
  · have h := h2 a
    simp only [targetRight, hd, Option.any_eq_true] at h
    obtain ⟨⟨p, c, o⟩, hr, hp⟩ := h
    exact ⟨c, o, by rw [hr]; simp_all⟩
  · have h := h2 a
    simp only [targetRight, hf, Bool.and_eq_true, Option.any_eq_true] at h
    obtain ⟨-, ⟨p, c, o⟩, hr, hp⟩ := h
    exact ⟨o, by rw [hr]; simp_all⟩

def grantKept (x : Plant) (a : ActId) : Bool :=
  match x.chans.look a with
  | .fan f => !f.energized || f.cfg.group.all fun g => decide (a ∈ x.history.look g)
  | _ => true

abbrev balancedly (x : Plant) : Prop :=
  (∀ g, x.figs.look g = x.figures g) ∧ (∀ a, grantKept x a = true)
    ∧ ∀ g, x.checked g = true → ((x.scaledSet g).map x.appliedFlow).sum ≤ (x.figs.look g).available

theorem balanced_of {s : State} (h : balancedly s.plant) : s.Balanced := by
  obtain ⟨h1, h2, h3⟩ := h
  refine fun _ g => ⟨h1 g, fun a f hf hg he => ?_, h3 g⟩
  have h := h2 a
  simpa [grantKept, hf, hg, he] using h

theorem witness_StepRunsTheFrontCommand : (queued .slewUpdate mall).pending = .slewUpdate :: [] := rfl

/-- A purge timer that has come due; nothing due. -/
theorem witness_AnIdleStepTakesWhatIsDueOrPassesAMillisecond :
    (let s := purging.onWorksOnly fun w => w.onPlant fun x => { x with now := 61000 };
      s.mode = .running ∧ s.pending = [] ∧ s.due ≠ [])
      ∧ mall.mode = .running ∧ mall.pending = [] ∧ mall.due = [] := by decide +kernel

/-- A state whose tenth millisecond is next: of A01 the first switch is about to change and the second has differed once, the
proof of A02 and the commissioning input are about to change. -/
def sampling : State :=
  { withPmc (fun m => { m with commissioning := ⟨true, false, 2⟩ }) (mall.onWorksOnly fun w => w.onPlant fun x =>
      { x with inputs := (x.inputs.put 0 ⟨⟨true, false, 2⟩, ⟨false, true, 1⟩⟩).put 1 ⟨⟨true, false, 2⟩, Input.released⟩ }) with
    samplePhase := 9 }

theorem witness_AnInputChangesAtItsThirdDifferingSample :
    (mall.samplePhase + 1 < 10 ∧ 10 ≤ sampling.samplePhase + 1)
      ∧ (sampling.plant.chans.look 0 = .damper path1 ∧ sampling.plant.chans.look 1 = .fan fan2
        ∧ sampling.plant.chans.look 3 = .damper inlet4 ∧ sampling.plant.inputs.look 3 = atClosedEnd
        ∧ sampling.plant.chans.look 2 = .fan fan3 ∧ (sampling.plant.inputs.look 2).first = ⟨false, false, 0⟩)
      ∧ sampling.samplePass.pending = [.switchChange 0 true true, .proofArrives 1, .commissioningInputOn]
      ∧ mall.pmc.commissioning = ⟨false, false, 0⟩ := by decide +kernel

theorem witness_EveryStepKeepsTheStoresInForm :
    (Memory.wf (queued .writeCompletion writing).pmc.mem = true
        ∧ ∃ t, step (queued .writeCompletion writing) = .next t)
      ∧ ((queued .slewUpdate fire).QueuesBounded ∧ ∃ t, step (queued .slewUpdate fire) = .next t)
      ∧ (queued .slewUpdate fire).plant.Settled :=
  ⟨⟨by decide +kernel, _, rfl⟩, ⟨by unfold State.QueuesBounded ReportQueue.Bounded; decide +kernel, _, rfl⟩,
    by unfold Plant.Settled; decide +kernel⟩

theorem witness_EveryStepKeepsTheOutputsFollowingTheState :
    (queued .slewUpdate running).OutputsFollow ∧ ∃ t, step (queued .slewUpdate running) = .next t :=
  ⟨by unfold State.OutputsFollow; decide +kernel, _, rfl⟩

theorem witness_EveryStepKeepsTheDuctInterlock :
    (queued .staggerExpiry waiting).InterlockHolds ∧ ∃ t, step (queued .staggerExpiry waiting) = .next t :=
  ⟨by unfold State.InterlockHolds; decide +kernel, _, rfl⟩

/-- Z1 leads, Z2 is behind it, and A03 has a manual demand. -/
theorem witness_EveryStepKeepsTheDemandListsInOrder :
    let s := queued (.setOverride .ff (.fields ⟨3, .off, 0⟩)) extracted
    s.OneDemandEach ∧ s.ZonesConsistent ∧ s.DemandsRight ∧ s.plant.demands.look 0 ≠ [] ∧ ∃ t, step s = .next t :=
  ⟨by unfold State.OneDemandEach; decide +kernel, consistent_of (by decide +kernel), demandsRight_of (by decide +kernel),
    by decide +kernel, _, rfl⟩

theorem witness_EveryStepKeepsTheTargetsResolved :
    let s := queued (.setOverride .ff (.fields ⟨3, .release, 0⟩)) manual
    s.TargetsFollow ∧ s.plant.demands.look 2 ≠ [] ∧ ∃ t, step s = .next t :=
  ⟨targets_of (by decide +kernel), by decide +kernel, _, rfl⟩

/-- A scaled fan of a checked group runs at its applied speed. -/
theorem witness_EveryStepKeepsTheAirInBalance :
    let s := queued (.setNormal .bl (.fields ⟨3, .on, 1000⟩)) scaled
    s.Balanced ∧ s.plant.scaledSet 0 = [2] ∧ ∃ t, step s = .next t :=
  ⟨balanced_of (by decide +kernel), by decide +kernel, _, rfl⟩

/-- Z1 leads, Z2 is behind it, Z3 is locked out; Z2 leads by its origin. -/
theorem witness_EveryStepKeepsTheZonesConsistent :
    ((queued (.purgeExpiry 0) locked3).ZonesConsistent ∧ ∃ t, step (queued (.purgeExpiry 0) locked3) = .next t)
      ∧ (queued .slewUpdate extracted).ZonesConsistent ∧ (queued .slewUpdate extracted).site.ic.Sorted
      ∧ ∃ t, step (queued .slewUpdate extracted) = .next t :=
  ⟨⟨consistent_of (by decide +kernel), _, rfl⟩, consistent_of (by decide +kernel),
    by unfold Incident.Sorted; decide +kernel, _, rfl⟩

theorem busy_of (c : Ctrl) (op : ArrayOp) (h : c.isBusy = true ∧ c.op = some op) : ∃ d, c = .busy op d := by
  cases c <;> simp_all [Ctrl.isBusy, Ctrl.op]

theorem suspended_of (c : Ctrl) (op : ArrayOp) (h : c.isBusy = false ∧ c.op = some op) : ∃ left, c = .suspended op left := by
  cases c <;> simp_all [Ctrl.isBusy, Ctrl.op]

theorem erasing_busy : ∃ d, erasing.pmc.ctrl = .busy (.erase 5) d := busy_of _ _ (by decide +kernel)

theorem suspended_left : ∃ left, suspended.pmc.ctrl = .suspended (.erase 5) left := suspended_of _ _ (by decide +kernel)

theorem guarded_erasing : erasing.pmc.Guarded := by
  obtain ⟨d, h⟩ := erasing_busy
  simp only [Pmc.Guarded, h]
  decide +kernel

theorem witness_EveryStepKeepsTheStoresInForm_plan_memory :
    (caught.incident = true ∧ (queued .slewUpdate caught).QuietInIncident ∧ ∃ t, step (queued .slewUpdate caught) = .next t)
      ∧ (queued (.eraseCompletion true) erasing).pmc.Guarded
      ∧ ∃ t, step (queued (.eraseCompletion true) erasing) = .next t :=
  ⟨⟨by decide +kernel, by unfold State.QuietInIncident; decide +kernel, _, rfl⟩, guarded_erasing, _, rfl⟩

/-- Block 1 is VALID; block 7 is LOCKED and under no operation; block 5 is the target of a suspended erase and locked meanwhile. -/
theorem witness_AValidOrLockedBlockKeepsItsContents :
    (erasing.pmc.Guarded ∧ (erasing.pmc.block 1).state = .valid
        ∧ ((erasing.pmc.block 7).lock ≠ .unlocked ∧ erasing.pmc.ctrl.target ≠ some 7))
      ∧ let s := queued .slewUpdate (after .commissioningInputOff suspended)
        s.pmc.Guarded ∧ (s.pmc.block 5).lock ≠ .unlocked ∧ s.pmc.ctrl.target = some 5
          ∧ ∃ t, step s = .next t ∧ t.mode = .running := by
  refine ⟨⟨guarded_erasing, by decide +kernel⟩, ?_, by decide +kernel, by decide +kernel, _, rfl, by decide +kernel⟩
  obtain ⟨left, h⟩ := suspended_of (after .commissioningInputOff suspended).pmc.ctrl (.erase 5) (by decide +kernel)
  have g : (queued .slewUpdate (after .commissioningInputOff suspended)).pmc.ctrl = .suspended (.erase 5) left := h
  simp only [Pmc.Guarded, g]
  decide +kernel

/-- A port ONLINE and one SILENT; a reply on FF with a restart accepted on BL; a reply on BL with none. -/
theorem witness_ARequestIsSupervisedAnsweredAndEnded :
    ((mall.port .bl).link = .online ∧ (silent.port .bl).link = .silent)
      ∧ (let s := after (.poll .ff (.fields ())) (after (.restartController .bl (.fields ())) mall);
        s.mode = .running ∧ (s.port .ff).rx = .replying ⟨none, ⟨true, false, none, some (2, 0)⟩, [0#8]⟩)
      ∧ (let s := after (.poll .bl (.fields ())) mall
        s.mode = .running ∧ (s.port .bl).rx = .replying ⟨none, ⟨true, false, none, some (2, 0)⟩, [0#8]⟩
          ∧ s.restartDue = false) := by decide +kernel

/-- An ALARM on FF; an ALARM of Z4, which is for AL1 alone. -/
theorem witness_ARefusedRequestChangesNothingElse :
    (let i : Instr := .alarm .ff (.fields 1);
      requestPort i = some .ff ∧ mall.taking .ff = true ∧ permittedOn i .ff = false)
      ∧ let i : Instr := .alarm (.alarm .al2) (.fields 4)
        requestPort i = some (.alarm .al2) ∧ isActing i = false ∧ mall.taking (.alarm .al2) = true
          ∧ exec i mall = .next (after i mall)
          ∧ ((after i mall).port (.alarm .al2)).rx = .replying ⟨some .zoneNotPermitted, ⟨true, false, none, none⟩, []⟩ :=
  ⟨by decide +kernel, by decide +kernel, by decide +kernel, by decide +kernel, rfl, by decide +kernel⟩

theorem witness_ARequestLeavesTheRestAsItWas :
    (requestPort (.setOverride .ff (.fields ⟨1, .opened, 0⟩)) = some .ff
        ∧ ∃ t, exec (.setOverride .ff (.fields ⟨1, .opened, 0⟩)) mall = .next t)
      ∧ (isStatusRead (.linkTableRead .ff (.fields ())) = true ∧ ∃ t, exec (.linkTableRead .ff (.fields ())) mall = .next t)
      ∧ (isPlanRead (.planStatus .bl (.fields ())) = true ∧ ∃ t, exec (.planStatus .bl (.fields ())) mall = .next t)
      ∧ mall.taking .ff = true ∧ (after (.poll .ff (.fields ())) mall).taking .ff = false :=
  ⟨⟨by decide +kernel, _, rfl⟩, ⟨rfl, _, rfl⟩, ⟨rfl, _, rfl⟩, by decide +kernel⟩

theorem witness_PollAndAckRestartActOnTheirOwnPort : mall.taking .ff = true ∧ mall.taking (.alarm .al1) = true := by
  decide +kernel

theorem witness_RestartControllerWaitsForItsReply :
    (mall.taking .bl = true ∧ mall.incident = false ∧ mall.testRunning = false ∧ mall.pmc.ctrl.operating = false)
      ∧ (fire.taking .bl = true ∧ fire.incident = true)
      ∧ (tested.taking .bl = true ∧ tested.incident = false ∧ tested.testRunning = true)
      ∧ (erasing.taking .bl = true ∧ erasing.incident = false ∧ erasing.testRunning = false
        ∧ erasing.pmc.ctrl.operating = true)
      ∧ (let s := after (.restartController .bl (.fields ())) mall
        s.mode = .running ∧ (s.port .bl).rx = .replying ⟨none, ⟨true, false, none, some (2, 0)⟩, []⟩ ∧ s.restartDue = true)
      ∧ requestPort (.poll .ff (.fields ())) = some .ff := by decide +kernel

/-- A body of one byte, with its CRC and with another, and a body of 200. -/
theorem witness_ReceivingAFrameTakesItsRequest :
    mall.mode = .running ∧ (mall.port .ff).rx = .hunting ∧ decodeRequest .ff [0x01#8] = some (.poll .ff (.fields ()))
      ∧ (∃ hi lo : Byte, hi.toNat * 256 + lo.toNat = crc16 [1#8, 0x01#8])
      ∧ (0#8).toNat * 256 + (0#8).toNat ≠ crc16 [1#8, 0x01#8]
      ∧ decodeRequest .ff (List.replicate 200 0x01#8) = some (.poll .ff .malformed) :=
  ⟨by decide +kernel, by decide +kernel, by decide +kernel,
    ⟨byteOf (crc16 [1#8, 0x01#8] / 256), byteOf (crc16 [1#8, 0x01#8]), by decide +kernel⟩, by decide +kernel, by decide +kernel⟩

theorem witness_TheReceiverHuntsForAFrame :
    let at_ (x : RxState) : State := mall.modPort .ff fun r => { r with rx := x, errors := 255 }
    ([.hunting, .inFrame .sync2 3, .inFrame .len 3, .inFrame (.body 2 [0x10#8]) 1000, .inFrame (.body 1 []) 1000,
      .inFrame (.crc [0x01#8] none) 3, .replying ⟨none, ⟨false, false, none, none⟩, []⟩].all fun x =>
        ((at_ x).port .ff).rx == x && (at_ x).isRunning) = true := by decide +kernel

/-- A line, and BL with no test and with one in progress; a queue with room. -/
theorem witness_AWindowExpirySilencesThePort :
    (mall.mode = .running ∧ (mall.port .ff).link = .online ∧ (mall.port .ff).window = some 10000
        ∧ (mall.port .bl).link = .online ∧ (mall.port .bl).window = some 30000 ∧ mall.site.works.ts.test = none
        ∧ mall.plant.ffReports.reports.length < 32 ∧ mall.plant.blReports.reports.length < 32)
      ∧ tested.mode = .running ∧ (tested.port .bl).link = .online ∧ (tested.port .bl).window = some 31000
      ∧ tested.site.works.ts.test = some ⟨0, 60, .plan⟩
      ∧ ((tested.site.works.ts.records.look 0).findings.map Finding.act).Nodup
      ∧ (after (.supervisionWindowExpiry .bl) tested).plant.ffReports.reports.length < 32
      ∧ (after (.supervisionWindowExpiry .bl) tested).plant.blReports.reports.length < 32 := by decide +kernel

/-- Operands at the ends of their fields. -/
theorem witness_DecodingARequestsBodyGivesTheRequest :
    (Instr.testZone .bl (.fields ⟨255, 65535⟩)).wf = true
      ∧ encodeRequest (.testZone .bl (.fields ⟨255, 65535⟩)) = some (.bl, [0x31#8, 0xFF#8, 0xFF#8, 0xFF#8])
      ∧ (Instr.writeRecord .bl (.fields ⟨0, 0, blankRecord⟩)).wf = true
      ∧ encodeRequest (.writeRecord .bl (.fields ⟨0, 0, blankRecord⟩))
        = some (.bl, [0x42#8, 0x00#8, 0x00#8] ++ blankRecord) := by decide +kernel

theorem witness_ZoneRequestsAreCheckedBeforeTheyAct :
    mall.taking (.alarm .al2) = true ∧ mall.taking .ff = true ∧ zoneOfNumber 48 = some 47
      ∧ (mall.site.ic.config 47).present = false ∧ zoneOfNumber 4 = some 3 ∧ (mall.site.ic.config 3).present = true
      ∧ (mall.site.ic.config 3).permitted.has .al2 = false := by decide +kernel

theorem witness_AnAlarmActsByTheStateOfItsZone :
    (mall.taking (.alarm .al1) = true ∧ zoneOfNumber 1 = some 0 ∧ (mall.site.ic.config 0).present = true
        ∧ (mall.site.ic.config 0).permitted.has .al1 = true ∧ ((alarmed mall .al1 0).zone 0).state = .normal
        ∧ (alarmed mall .al1 0).ic.fireOrder = [])
      ∧ (let x := alarmed fire .al1 1
        fire.taking (.alarm .al1) = true ∧ (x.zone 1).state = .normal ∧ x.ic.fireOrder ≠ [] ∧ x.ic.compatible 1 = true
          ∧ x.ic.rank < Config.max32 ∧ ∀ y ∈ x.ic.fireOrder, x.ic.rankOf y ≤ x.ic.rank)
      ∧ (let x := alarmed fire2 .al1 2
        (x.zone 2).state = .normal ∧ x.ic.fireOrder ≠ [] ∧ x.ic.compatible 2 = false)
      ∧ ((alarmed purging .al1 0).zone 0).state = .restoring ∧ ((alarmed locked3 .al1 2).zone 2).state = .lockedOut
      ∧ ((alarmed fire .al2 0).zone 0).state = .active ∧ ((alarmed heldOff .al1 0).zone 0).state = .heldOff := by
  decide +kernel

/-- Z1 with two holders, of origin FF, with one holder; Z3 locked out. -/
theorem witness_ARestoreRemovesTheHolderAndMayPurge :
    (fire.taking (.alarm .al1) = true ∧ (fire.site.ic.config 0).permitted.has .al1 = true
        ∧ ((restored (tell (.alarm (.alarm .al2) (.fields 1)) fire) .al1 0).zone 0).holders ≠ LineSet.empty)
      ∧ (let r := (restored extracted .al2 1).zone 1
        r.holders = LineSet.empty ∧ r.state = .active ∧ r.origin ≠ some .alarm)
      ∧ (let r := (restored fire .al1 0).zone 0
        r.holders = LineSet.empty ∧ r.state = .active ∧ r.origin = some .alarm)
      ∧ (let x := restored locked3 .al2 2
        (x.zone 2).holders = LineSet.empty ∧ (x.zone 2).state = .lockedOut ∧ 2 ∉ x.ic.fireOrder) := by decide +kernel

/-- The states of the statements that rest on `ZonesConsistent`. -/
theorem the_zones_are_consistent :
    mall.ZonesConsistent ∧ extracted.ZonesConsistent ∧ fire2.ZonesConsistent ∧ locked3.ZonesConsistent
      ∧ heldOff.ZonesConsistent ∧ purging.ZonesConsistent ∧ tested.ZonesConsistent
      ∧ (tell (.setZoneMode .ff (.fields ⟨1, .off⟩)) fire).ZonesConsistent
      ∧ (tell (.restore (.alarm .al2) (.fields 2)) extracted).ZonesConsistent ∧ behind1.ZonesConsistent
      ∧ (after (.restore (.alarm .al1) (.fields 1)) behind1).ZonesConsistent :=
  ⟨consistent_of (by decide +kernel), consistent_of (by decide +kernel), consistent_of (by decide +kernel), consistent_of (by decide +kernel), consistent_of (by decide +kernel),
    consistent_of (by decide +kernel), consistent_of (by decide +kernel), consistent_of (by decide +kernel),
    consistent_of (by decide +kernel), consistent_of (by decide +kernel), consistent_of (by decide +kernel)⟩

theorem the_demands_are_right :
    fire2.DemandsRight ∧ purging.DemandsRight ∧ tested.DemandsRight :=
  ⟨demandsRight_of (by decide +kernel), demandsRight_of (by decide +kernel), demandsRight_of (by decide +kernel)⟩

theorem witness_ExtractPlacesTheZoneInTheFireOrder :
    (extracted.taking .ff = true ∧ zoneOfNumber 2 = some 1 ∧ (extracted.site.ic.config 1).present = true
        ∧ ((moded extracted .extract 1).zone 1).state = .active
        ∧ ((moded extracted .extract 1).zone 1).origin = some .ff)
      ∧ 1 ∈ (moded fire2 .extract 1).ic.fireOrder ∧ ((moded locked3 .extract 2).zone 2).state ≠ .active
      ∧ (moded fire2 .extract 1).ic.rank + 49 ≤ Config.max32 ∧ ((moded purging .extract 0).zone 0).state = .restoring
      ∧ (moded mall .extract 1).ic.fireOrder = [] ∧ ((moded mall .extract 1).zone 1).state = .normal := by decide +kernel

theorem witness_OffHoldsTheZoneOutOfFireMode :
    heldOff.taking .ff = true ∧ (heldOff.site.ic.config 0).present = true ∧ ((moded heldOff .off 0).zone 0).state = .heldOff
      ∧ fire2.taking .ff = true ∧ ((moded fire2 .off 0).zone 0).state ≠ .heldOff
      ∧ (fire.taking .ff = true ∧ fire.site.ic.fireOrder = [0] ∧ fire.site.ic.lockedOut = [])
      ∧ behind1.taking .ff = true ∧ behind1.site.ic.fireOrder = [0] ∧ behind1.site.ic.lockedOut = [2] := by decide +kernel

theorem witness_AutoHandsTheZoneBackToItsAlarms :
    (let r := (moded (tell (.setZoneMode .ff (.fields ⟨1, .off⟩)) mall) .auto 0).zone 0;
        r.state = .heldOff ∧ r.holders = LineSet.empty)
      ∧ (let x := moded (tell (.setZoneMode .ff (.fields ⟨1, .off⟩)) fire) .auto 0
        (x.zone 0).state = .heldOff ∧ (x.zone 0).holders ≠ LineSet.empty ∧ x.ic.fireOrder = [])
      ∧ (let x := moded heldOff .auto 0
        heldOff.taking .ff = true ∧ (x.zone 0).state = .heldOff ∧ (x.zone 0).holders ≠ LineSet.empty
          ∧ x.ic.fireOrder ≠ [] ∧ x.ic.compatible 0 = false)
      ∧ (let r := (moded extracted .auto 1).zone 1
        r.state = .active ∧ r.origin = some .ff ∧ r.holders ≠ LineSet.empty)
      ∧ (moded extracted .auto 1).ic.rank + 49 ≤ Config.max32
      ∧ (let r := (moded (tell (.restore (.alarm .al2) (.fields 2)) extracted) .auto 1).zone 1
        r.state = .active ∧ r.origin = some .ff ∧ r.holders = LineSet.empty)
      ∧ ((moded fire .auto 0).zone 0).origin ≠ some .ff ∧ ((moded purging .auto 0).zone 0).state = .restoring := by
  decide +kernel

/-- Z2 purges behind the lead Z1; Z1 purges alone. -/
theorem witness_PurgeExpiryEndsTheZonesFireMode :
    (let s := tell (.restore (.alarm .al2) (.fields 2)) fire2;
      s.mode = .running ∧ (s.zone 1).state = .restoring ∧ (s.zone 1).purge = some 61000 ∧ s.site.ic.lead ≠ some 1
        ∧ s.site.ic.fireOrder.filter (· != 1) ≠ [])
      ∧ purging.mode = .running ∧ (purging.zone 0).state = .restoring ∧ (purging.zone 0).purge = some 61000
      ∧ purging.site.ic.fireOrder = [0] ∧ purging.site.ic.lockedOut = []
      ∧ let s := after (.restore (.alarm .al1) (.fields 1)) behind1
        (s.zone 0).state = .restoring ∧ (s.zone 0).purge = some 61000 ∧ s.site.ic.fireOrder = [0]
          ∧ s.site.ic.lockedOut = [2] := by decide +kernel

/-- The rank counter below its limit and at it; Z3 in the locked-out list behind Z1 and Z2. -/
theorem witness_RanksAndReEvaluationKeepTheirOrder :
    [fire2.site.ic, { fire2.site.ic with rank := Config.max32 }].all (fun ic =>
      decide ic.fireOrder.Nodup && decide (ic.rank ≤ Config.max32) && ic.fireOrder.all fun z => decide (ic.rankOf z ≤ ic.rank))
      = true
      ∧ let x := locked3.site
        x.ic.fireOrder.Nodup ∧ x.ic.lockedOut.Nodup ∧ x.ic.rank ≤ Config.max32
          ∧ (∀ z ∈ x.ic.fireOrder, x.ic.rankOf z ≤ x.ic.rank) ∧ (∀ z ∈ x.ic.lockedOut, z ∉ x.ic.fireOrder)
          ∧ x.ic.lockedOut ≠ [] ∧ x.ic.fireOrder ≠ [] := by decide +kernel

/-- OFF of Z1 passes the lead to Z2 with Z3 locked out behind; OFF of Z1 takes Z3 from the locked-out list, and so does the end of
its purge. -/
theorem witness_RanksAndReEvaluationKeepTheirOrder_lead :
    (let t := after (.setZoneMode .ff (.fields ⟨1, .off⟩)) locked3;
      locked3.mode = .running ∧ locked3.site.ic.lead = some 0 ∧ t.site.ic.lead = some 1 ∧ t.site.ic.lockedOut = [2])
      ∧ (behind1.mode = .running ∧ 2 ∈ behind1.site.ic.lockedOut
        ∧ 2 ∉ (after (.setZoneMode .ff (.fields ⟨1, .off⟩)) behind1).site.ic.lockedOut ∧ zoneOfNumber 1 = some 0)
      ∧ let s := after (.restore (.alarm .al1) (.fields 1)) behind1
        2 ∈ s.site.ic.lockedOut ∧ 2 ∉ (after (.purgeExpiry 0) s).site.ic.lockedOut := by decide +kernel

/-- What a fan's record holds of its state and its resolved demand. -/
def seen (s : State) (a : ActId) : Option (FanState × FanTarget × ResolvedClass × Bool) :=
  (s.plant.fan? a).map fun f => (f.state, f.target, f.cls, f.requeue)

/-- The contexts of Z1 in step 1 and in step 2 of its plan. -/
def context1 : Ctx :=
  ⟨.own 1, 2, 1, .sequencing, .fire, [(0, .damper .opened)], [(0, .damper .opened)], .running 2000, some 21000, 0, []⟩
def context2 : Ctx :=
  ⟨.own 1, 2, 2, .sequencing, .fire, [(0, .damper .opened), (1, .fan (.on 500))], [(1, .fan (.on 500))], .running 2000,
    some 32000, 0, [⟨.complete, [], []⟩]⟩

/-- A damper and a fan of the mall with an entry that fits them, the zone's own entry in the list of A01; an inlet with OFF. -/
theorem witness_PostingAnEntryPlacesItsDemand :
    fire.site.works.ctx 0 = some context1 ∧ fire.plant.chans.look 3 = .damper inlet4
      ∧ (seen fire 1).isSome = true ∧ (fire.plant.demands.look 0).map Demand.orig = [.zone 0]
      ∧ context1.posted.Pairwise (fun r q => r.1.val < q.1.val) := by decide +kernel

/-- Z1 in step 1 of its own plan enters step 2: the record's one entry is A02 ON at 500 with the prove flag. -/
theorem witness_EnteringAStepPostsItsRecord :
    let byte (i : Nat) : Nat := (Memory.read mall.pmc.mem (recordBase 1 2 + i)).toNat
    fire.site.works.ctx 0 = some context1 ∧ context1.plan = .own 1 ∧ mall.pmc.cond 1 2 = .written ∧ byte 4 = 1
      ∧ byte 5 = (1 : ActId).val + 1 ∧ byte 6 = 3 ∧ byte 7 ≠ 0 ∧ byte 8 * 256 + byte 9 = 500 := by decide +kernel

/-- Block 1 VALID and under no operation; block 0 so too; neither, where an erase of block 5 is under way. -/
theorem witness_AZoneBeginsWithThePlanInUse :
    ((mall.pmc.block 1).state = .valid ∧ mall.pmc.ctrl = .ready)
      ∧ ((withPmc (fun m => m.setBlock 0 planBlock) mall).pmc.block 0).state = .valid
      ∧ (erasing.pmc.block 0).state ≠ .valid ∧ (erasing.pmc.block 5).state ≠ .valid
      ∧ (erasing.plant.pxDue = [] ∧ erasing.plant.notes = [])
      ∧ mall.plant.ffReports.reports.length < 32 := by decide +kernel

/-- Step 1 proven with a step left, the last step proven, step 1 not proven; a timeout in step 1 and in the last step; a zone under
test in its last step. -/
theorem witness_AStepEndsByItsDwellOrItsTimeout :
    (dwelling.mode = .running ∧ dwelling.site.works.ctx 0 = some context1 ∧ context1.plan.block.isSome = true
        ∧ context1.phase = .sequencing ∧ dwelling.plant.proofHolds context1 = true ∧ context1.step < context1.steps
        ∧ dwelling.plant.ffReports.reports.length < 32 ∧ dwelling.plant.blReports.reports.length < 32)
      ∧ (running.site.works.ctx 0 = some context2 ∧ running.plant.proofHolds context2 = true
        ∧ context2.steps ≤ context2.step ∧ running.site.works.ts.test = none)
      ∧ (fire.mode = .running ∧ fire.site.works.ctx 0 = some context1 ∧ fire.plant.proofHolds context1 = false
        ∧ fire.plant.pxDue = [] ∧ fire.plant.notes = [] ∧ context1.timeout = some 21000)
      ∧ (starting.mode = .running ∧ starting.site.works.ctx 0 = some context2 ∧ context2.timeout = some 32000)
      ∧ let s := after (.stepTimeoutExpiry 0) tested
        (s.site.works.ctx 0).map (fun c => decide (c.steps ≤ c.step)) = some true
          ∧ s.site.works.ts.test.map Test.zone = some 0 := by decide +kernel

/-- Z1 in step 1 with its dwell expired, its damper at the open end and the change handed but not yet judged; Z2 ahead of Z1 in
the fire order without a channel in its proof set. -/
theorem witness_AChangeThatMakesProofHoldEndsTheStep :
    let w := (after (.dwellExpiry 0) fire).site.works
    let there : Works := w.onPlant fun x =>
      { x.setChan 0 (.damper ⟨path1.cfg, .atOpen, .opened, true, none, none, none⟩) with pxDue := [0] }
    let expired : Ctx := { context1 with dwell := .expired }
    (there.ctx 0 = some expired ∧ expired.phase = .sequencing ∧ expired.plan.block.isSome = true
        ∧ there.plant.proofHolds expired = true ∧ (0, Position.damper .opened) ∈ expired.proof ∧ 0 ∈ there.plant.pxDue
        ∧ there.ts.test = none ∧ expired.step < expired.steps)
      ∧ fire.site.works.ctx 0 = some context1
      ∧ (running.site.works.ctx 0 = some context2 ∧ running.plant.proofHolds context2 = true ∧ context2.steps ≤ context2.step)
      ∧ ((after (.dwellExpiry 0) running).site.works.ctx 0).map Ctx.phase = some .established := by decide +kernel

/-- Channels that a setting does not fit. In the list of A01 no MANUAL entry, in that of A03 one; in that of A01 no NORMAL entry,
in that of A03 one. -/
theorem witness_OverridesAndNormalsPlaceTheirEntries :
    (mall.taking .ff = true ∧ mall.taking .bl = true ∧ actOfNumber 64 = some 63 ∧ mall.plant.chans.look 63 = .unassigned
        ∧ mall.plant.chans.look 0 = .damper path1 ∧ mall.plant.chans.look 1 = .fan fan2)
      ∧ (fire.taking .ff = true ∧ actOfNumber 1 = some 0 ∧ (fire.plant.damper? 0).isSome = true
        ∧ ∀ e ∈ fire.plant.demands.look 0, e.orig ≠ .ff ∧ e.cls ≠ .manual)
      ∧ (manual.taking .ff = true ∧ manual.plant.demands.look 2 = [⟨.manual, .ff, .fan (.on 300)⟩]
        ∧ (manual.plant.fan? 2).map (fun f => rangedOn f.cfg.minSpeed 400) = some (.on 400))
      ∧ (fire.taking .bl = true ∧ fire.incident = true)
      ∧ (mall.incident = false ∧ mall.plant.demands.look 0 = [])
      ∧ (let s := tell (.setNormal .bl (.fields ⟨3, .on, 500⟩)) manual
        s.taking .bl = true ∧ s.incident = false
          ∧ s.plant.demands.look 2 = [⟨.manual, .ff, .fan (.on 300)⟩] ++ [⟨.normal, .bl, .fan (.on 500)⟩]
          ∧ (s.plant.fan? 2).isSome = true) := by decide +kernel

/-- A01 at its closed end, travelling with the switches of the end it left or of neither end, and in a fault. -/
theorem witness_ADamperFollowsItsTarget :
    (mall.plant.chans.look 0 = .damper path1 ∧ mall.plant.resolved 0 = some ⟨.damper path1.target, .rest, none⟩
        ∧ mall.plant.ffReports.reports.length < 32)
      ∧ (let x := fire.plant
        (x.damper? 0).map (fun d => (d.state, d.target)) = some (.opening, .opened)
          ∧ (x.resolved 0).map Resolved.pos = some (.damper .opened)
          ∧ switchCond (x.inputs.look 0).first.debounced (x.inputs.look 0).second.debounced = DamperPos.closed.endCond)
      ∧ (let x := (after (.switchChange 0 false false) fire).plant
        (x.damper? 0).map (fun d => (d.state, d.target)) = some (.opening, .opened)
          ∧ switchCond (x.inputs.look 0).first.debounced (x.inputs.look 0).second.debounced ≠ DamperPos.closed.endCond)
      ∧ (let x := (after (.travelTimerExpiry 0) fire).plant
        (x.damper? 0).map (fun d => (d.state, d.target)) = some (.travelFault, .opened))
      ∧ (let x := (after (.switchChange 0 true true) fire).plant
        (x.damper? 0).map (fun d => (d.state, d.target)) = some (.switchFault, .opened)) := by decide +kernel

/-- A fan of G1 waits for a permit with the stagger timer running, and runs; A02 is stopped before a closed path, waits for its
interlock, starts behind its open path, and stops. -/
theorem witness_AFanFollowsItsTarget :
    (seen mall 1 = some (.stopped, .off, .rest, false) ∧ mall.plant.pathOpen fan2 = false
        ∧ mall.plant.resolved 1 = some ⟨.fan .off, .rest, none⟩)
      ∧ (seen starting 2 = some (.stopped, .off, .rest, false) ∧ starting.plant.stagger.isSome = true
        ∧ starting.plant.pathOpen fan3 = true)
      ∧ seen waiting 2 = some (.waitPermit, .on 300, .manual, false) :=
  ⟨by decide +kernel, by decide +kernel, by decide +kernel⟩

theorem witness_a_waiting_and_an_energized_fan_follow_their_target :
    (let s := tell (.setOverride .ff (.fields ⟨2, .on, 400⟩)) mall;
      seen s 1 = some (.waitInterlock, .on 400, .manual, false)
        ∧ s.plant.resolved 1 = some ⟨.fan (.on 400), .manual, some .ff⟩)
      ∧ (seen running 1 = some (.running, .on 500, .fire, false) ∧ running.plant.proofPresent 1 = true
        ∧ running.plant.resolved 1 = some ⟨.fan (.on 500), .fire, some (.zone 0)⟩)
      ∧ (seen starting 1 = some (.starting, .on 500, .fire, false) ∧ starting.plant.proofPresent 1 = false)
      ∧ seen stopping 1 = some (.stopping, .on 500, .fire, false) :=
  ⟨by decide +kernel, by decide +kernel, by decide +kernel, by decide +kernel⟩

/-- A fan of the mall in a given state. -/
def fanIn (st : FanState) (t : FanTarget) (proof : Bool) : State := withFan { fan2 with state := st, target := t } proof

theorem witness_ClearFaultRestartsAFaultedChannel :
    (mall.taking .ff = true ∧ actOfNumber 64 = some 63 ∧ mall.plant.chans.look 63 = .unassigned)
      ∧ (let s := withDamper { path1 with state := .travelFault } atClosedEnd
        s.taking .ff = true ∧ s.plant.chans.look 0 = .damper { path1 with state := .travelFault })
      ∧ (mall.plant.chans.look 0 = .damper path1 ∧ path1.state ≠ .travelFault)
      ∧ ((fanIn .runFault (.on 500) false).plant.chans.look 1 = .fan { fan2 with state := .runFault, target := .on 500 })
      ∧ ((fanIn .stopFault .off true).plant.chans.look 1 = .fan { fan2 with state := .stopFault, target := .off })
      ∧ (mall.plant.chans.look 1 = .fan fan2 ∧ fan2.state ≠ .runFault ∧ fan2.state ≠ .stopFault) := by decide +kernel

/-- A damper travels to its open end, stands there, and stands in SWITCH_FAULT; each pair of switches is a change. -/
theorem witness_ADamperFollowsItsSwitchesAndItsTimer :
    let going : Damper := { path1 with
      state := .opening, target := .opened, drive := true, timer := some 9000, cause := some .command, captureStart := some 400 }
    let there : Damper := { going with state := .atOpen, timer := none, cause := none, captureStart := none }
    let between : ChanInputs := ⟨Input.settle false, Input.settle false⟩
    let atOpenEnd : ChanInputs := ⟨Input.settle true, Input.settle false⟩
    let both : ChanInputs := ⟨Input.settle true, Input.settle true⟩
    (let s := withDamper going between;
      s.mode = .running ∧ s.plant.chans.look 0 = .damper going ∧ s.plant.inputs.look 0 = between
        ∧ switchCond true false = going.target.endCond ∧ max 1 (s.plant.now - 400) ≤ Config.max32
        ∧ (s.plant.stats.look 0).average = none)
      ∧ (withDamper { going with cause := some .drift } between).plant.chans.look 0 = .damper { going with cause := some .drift }
      ∧ (switchCond true true = .contradictory ∧ switchCond false false ≠ there.target.endCond
        ∧ switchCond false true ≠ going.target.endCond ∧ switchCond false false ≠ .contradictory)
      ∧ ((withDamper there atOpenEnd).plant.chans.look 0 = .damper there)
      ∧ ((withDamper { there with state := .switchFault } both).plant.inputs.look 0 = both)
      ∧ ((withDamper { there with state := .switchFault } between).plant.chans.look 0 = .damper { there with state := .switchFault })
      ∧ ((after (.switchChange 0 true false) fire).plant.stats.look 0).average = some 1 := by decide +kernel

/-- A fan in each of the states from which its clauses begin, its proof absent or present. -/
theorem witness_AFanFollowsItsProofAndItsTimers :
    ([fanIn .starting (.on 500) false, fanIn .runFault (.on 500) false, fanIn .stopped .off false].all fun s =>
        s.isRunning && (s.plant.fan? 1).isSome && !(s.plant.inputs.look 1).first.debounced)
      ∧ ([fanIn .running (.on 500) true, fanIn .stopping .off true, fanIn .stopFault (.on 500) true,
          fanIn .starting (.on 500) true].all fun s =>
        s.isRunning && (s.plant.fan? 1).isSome && (s.plant.inputs.look 1).first.debounced)
      ∧ ((fanIn .stopping (.on 500) true).plant.pathOpen fan2 = false)
      ∧ ((after (.switchChange 0 true false) fire).plant.pathOpen fan2 = true)
      ∧ ((starting.plant.fan? 1).map (fun f => (f.state, f.proofTimer)) = some (.starting, some 12000))
      ∧ (stopping.plant.fan? 1).map (fun f => (f.state, f.runDownTimer)) = some (.stopping, some 22000) := by decide +kernel

/-- A fan in the start queue with the stagger timer running, its proof absent or present. -/
def queueing (a : ActId) (f : Fan) (proof : Bool) : State :=
  mall.onWorksOnly fun w => w.onPlant fun x =>
    { x.setChan a (.fan { f with state := .waitPermit, target := .on 500, cls := .normal }) with
      queue := [⟨a, 500, .new⟩], stagger := some 2000
      inputs := x.inputs.put a ⟨Input.settle proof, Input.released⟩ }

/-- A02 behind its closed path takes no permit (R88). -/
theorem test_a_walk_grants_no_fan_with_a_broken_path :
    ((after .staggerExpiry (queueing 1 fan2 false)).plant.fan? 1).map (·.state) = some .waitPermit := by decide +kernel

/-- A01 changes, a path damper; A04 changes, the inlet of G1; A02 waits, runs with and without proof, and is stopped. -/
theorem witness_TheInterlockStartsAndStopsFans :
    (path1.cfg.role = .path ∧ inlet4.cfg.role = .inlet ∧ inlet4.cfg.group = some 0)
      ∧ (let x := (withFan { fan2 with state := .waitInterlock, target := .on 500 } false).plant
        (x.fan? 1).map (·.state) = some .waitInterlock ∧ x.pathOpen fan2 = false
          ∧ ({ x.setChan 0 (.damper { path1 with state := .atOpen }) with stagger := some 9000 }).pathOpen fan2 = true)
      ∧ ((fanIn .running (.on 500) true).plant.pathOpen fan2 = false
        ∧ (fanIn .running (.on 500) true).plant.proofPresent 1 = true)
      ∧ ((fanIn .starting (.on 500) false).plant.proofPresent 1 = false)
      ∧ ((fanIn .waitPermit (.on 500) false).plant.fan? 1).map (·.state) = some .waitPermit
      ∧ (mall.plant.fan? 1).map (·.state) = some .stopped := by decide +kernel

/-- A fan of no group, without and with its proof; a scaled fan of G1 without room; and one with room, whose group's figures are
current. -/
theorem witness_AnExpiredStaggerGrantsTheFirstAdmissibleFan :
    (let s := queueing 1 { fan2 with cfg := { fan2.cfg with path := [] } } false;
      s.mode = .running ∧ s.plant.stagger = some 2000 ∧ s.plant.queue = [] ++ ⟨1, 500, .new⟩ :: []
        ∧ s.plant.waitsForPermit 1 = true ∧ s.plant.admissible 1 = true ∧ s.plant.proofPresent 1 = false
        ∧ (s.plant.fan? 1).map (·.cfg.group) = some none)
      ∧ (queueing 1 { fan2 with cfg := { fan2.cfg with path := [] } } true).plant.proofPresent 1 = true
      ∧ (let s := queueing 2 fan3 false
        s.plant.stagger = some 2000 ∧ (∀ e ∈ s.plant.queue, s.plant.admissible e.fan = false)
          ∧ (s.plant.fan? 2).map (fun f => (f.cfg.group, f.cls)) = some (some 0, .normal)
          ∧ (s.plant.groups.look 0).velocity ≠ 0)
      ∧ (let x := (queueing 2 fan3 false).plant.setChan 3 (.damper { inlet4 with state := .atOpen })
        let y : Plant := { x with stagger := none, figs := x.figs.put 0 (x.figures 0) }
        y.queue = [] ++ ⟨2, 500, .new⟩ :: [] ∧ y.waitsForPermit 2 = true ∧ y.admissible 2 = true
          ∧ y.figs.look 0 = y.figures 0)
      ∧ (mall.plant.fan? 1).map (·.cfg.group) = some none ∧ (manual.plant.fan? 2).map (·.cls) = some .manual := by decide +kernel

/-- G1 with its inlet open and its fan running, granted last of two fans. -/
def airy (area : Nat) (st : FanState) : Plant :=
  let x := ((mall.plant.setChan 3 (.damper { inlet4 with cfg := { inlet4.cfg with freeArea := area }, state := .atOpen })).setChan 2
    (.fan { fan3 with state := st, target := .on 1000, run := true, present := 300 }))
  { x with history := x.history.put 0 [1, 2], inputs := x.inputs.put 2 ⟨Input.settle (st = .running), Input.released⟩ }

/-- The fan demands what the inlet admits, more than that, and at its minimum more than that, with its proof and without. -/
theorem witness_AnEvaluationKeepsTheFlowWithinTheCapacity :
    ([airy 2000 .running, airy 800 .running, airy 200 .running, airy 200 .starting].all fun y =>
        (y.groups.look 0).velocity != 0 && y.scaledSet 0 == [2] && (y.history.look 0).contains 2
          && decide (y.history.look 0).Nodup && (y.fan? 2).any fun f => decide (f.cfg.minSpeed ≤ f.demanded))
      ∧ ((airy 800 .running).evaluate id 0).scaledSet 0 = [2] ∧ ((airy 200 .running).evaluate id 0).scaledSet 0 = []
      ∧ ((airy 200 .running).proofPresent 2 = true ∧ (airy 200 .starting).proofPresent 2 = false)
      ∧ ((airy 200 .running).evaluate id 0).ffReports.reports.length < 32
      ∧ ((airy 200 .running).evaluate id 0).blReports.reports.length < 32 := by decide +kernel

/-- By hand from R106 and R109: 100 × 100 × 2000 mL/s carry 10000 × 1000, and of 100 × 100 × 800 the share is 800 ‰. -/
theorem test_an_evaluation_scales_its_fan :
    [airy 2000 .running, airy 800 .running].map (fun y => ((y.evaluate id 0).fan? 2).map (·.applied)) = [some 1000, some 800] := by
  decide +kernel

theorem witness_TestZoneIsCheckedAndBeginsTheTest :
    (mall.taking .bl = true ∧ zoneOfNumber 48 = some 47 ∧ (mall.site.ic.config 47).present = false)
      ∧ (fire.taking .bl = true ∧ (fire.site.ic.config 0).present = true ∧ fire.incident = true)
      ∧ (tested.taking .bl = true ∧ tested.incident = false ∧ tested.testRunning = true)
      ∧ (mall.incident = false ∧ mall.testRunning = false ∧ (mall.site.ic.config 1).present = true
        ∧ (mall.site.ic.config 1).testPermitted = false)
      ∧ (let s := tell (.setZoneMode .ff (.fields ⟨1, .off⟩)) mall
        s.taking .bl = true ∧ s.incident = false ∧ s.testRunning = false ∧ (s.zone 0).state ≠ .normal)
      ∧ ((mall.site.ic.config 3).testPermitted = false ∨ (mall.zone 3).state = .normal)
      ∧ ((mall.site.ic.config 3).testPermitted = true ∧ (mall.site.ic.config 3).planBlock = none)
      ∧ (let s := withPmc (fun m => m.modBlock 1 fun b => { b with state := .opened }) mall
        s.taking .bl = true ∧ (s.site.ic.config 0).planBlock = some 1 ∧ (s.pmc.block 1).state ≠ .valid)
      ∧ ((setupOf5.site.ic.config 0).planBlock = some 1 ∧ (setupOf5.pmc.block 1).state = .valid ∧ setupOf5.pmc.ctrl ≠ .ready)
      ∧ ((mall.site.ic.config 0).testPermitted = true ∧ (mall.zone 0).state = .normal
        ∧ (mall.site.ic.config 0).planBlock = some 1 ∧ (mall.pmc.block 1).state = .valid ∧ mall.pmc.ctrl = .ready)
      ∧ (mall.plant.pxDue = [] ∧ mall.plant.notes = []) := by
  decide +kernel

/-- A test begins with A01 in TRAVEL_FAULT (R120). -/
def faultTested : State := tell (.testZone .bl (.fields ⟨1, 60⟩)) (withDamper { path1 with state := .travelFault } atClosedEnd)

theorem test_a_first_demand_on_a_faulted_channel_is_a_finding :
    (faultTested.site.works.ts.records.look 0).findings = [⟨0, .fault, none⟩] := by decide +kernel

/-- The test that holds, with findings of each kind in its record. -/
def holdingWith (l : List Finding) : State :=
  holding.onWorksOnly fun w => { w with ts := w.ts.addFinding fun _ => l }

theorem witness_ATestEndsByItsHoldOrByAnAbort :
    (mall.taking .bl = true ∧ mall.testRunning = false)
      ∧ (tested.site.works.ts.test = some ⟨0, 60, .plan⟩ ∧ tested.taking .bl = true)
      ∧ (holding.mode = .running ∧ holding.site.works.ts.test = some ⟨0, 60, .hold 5000⟩)
      ∧ ((holdingWith [⟨0, .fault, none⟩]).site.works.ts.records.look 0).findings = [⟨0, .fault, none⟩]
      ∧ ((holdingWith [⟨0, .slow, none⟩]).site.works.ts.records.look 0).findings = [⟨0, .slow, none⟩]
      ∧ (holding.site.works.ts.records.look 0).findings = [] ∧ holding.site.works.outcomes 0 = []
      ∧ [after .holdExpiry holding, after (.abortTest .bl (.fields ())) tested, after (.alarm (.alarm .al1) (.fields 2)) tested,
          after (.setZoneMode .ff (.fields ⟨2, .off⟩)) tested].all (fun t => t.isRunning && !t.testRunning &&
        decide (t.plant.ffReports.reports.length < 32) && decide (t.plant.blReports.reports.length < 32)) = true := by decide +kernel

/-- The open record of Z1 without a finding, with a SLOW and with a FAULT one; A01 is posted and A04 is not; A01 travels, its timer
expires, and it arrives. -/
theorem witness_ATestRecordsItsFindings :
    let slow := tested.onWorksOnly fun w => { w with ts := w.ts.addFinding fun _ => [⟨0, .slow, none⟩] }
    ([tested, slow, faultTested].all fun s => s.isRunning && (s.site.works.ts.records.look 0).outcome == .none
        && s.site.works.ts.test == some ⟨0, 60, .plan⟩ && (s.site.works.ctx 0).any fun c => c.posted == [(0, .damper .opened)]
          && c.cls == .test)
      ∧ [tested, slow, faultTested].map (fun s => (s.site.works.ts.records.look 0).findings)
        = [[], [⟨0, .slow, none⟩], [⟨0, .fault, none⟩]]
      ∧ (tested.plant.chans.look 3 = .damper inlet4 ∧ tested.plant.pxDue = [] ∧ tested.plant.notes = [])
      ∧ (let t := after (.travelTimerExpiry 0) tested
        t.mode = .running ∧ (t.plant.damper? 0).map (·.state) = some .travelFault
          ∧ t.site.works.ts.test.map Test.zone = some 0)
      ∧ (tested.plant.damper? 0).map (fun d => (d.state, d.cause, d.captureStart)) = some (.opening, some .command, some 1000)
      ∧ switchCond true false = DamperPos.opened.endCond
      ∧ (let i := tested.plant.inputs.look 0
        switchCond i.first.debounced i.second.debounced ≠ DamperPos.opened.endCond)
      ∧ ((after (.switchChange 0 true false) tested).plant.stats.look 0).slow = false
      ∧ let s := tested.onWorksOnly fun w => w.onPlant fun x => { x with now := 9000 }
        ((after (.switchChange 0 true false) s).plant.stats.look 0).slow = true := by decide +kernel

/-- Plan memory with a flag set, and with a setup of block 5 in an incident, in a test, and with the block LOCKED. -/
theorem witness_AnEraseTakesASetupAndItsConfirm :
    (erasing.taking .bl = true ∧ erasing.pmc.ctrl.operating = true)
      ∧ (let s := withPmc (fun m => { m.raise .write with ctrl := .ready }) unlocked5
        s.taking .bl = true ∧ s.pmc.ctrl = .ready ∧ s.pmc.flags.any = true)
      ∧ (mall.taking .bl = true ∧ mall.pmc.ctrl = .ready ∧ mall.pmc.flags.any = false ∧ mall.pmc.commissioning.debounced = false)
      ∧ (unlocked5.taking .bl = true ∧ unlocked5.pmc.ctrl = .ready ∧ unlocked5.pmc.flags.any = false
        ∧ unlocked5.pmc.commissioning.debounced = true)
      ∧ (setupOf5.taking .bl = true ∧ setupOf5.pmc.ctrl = .eraseSetup 5 ∧ setupOf5.pmc.flags.any = false
        ∧ setupOf5.pmc.commissioning.debounced = true ∧ setupOf5.incident = false ∧ setupOf5.testRunning = false
        ∧ (setupOf5.pmc.block 5).lock = .unlocked)
      ∧ (let s := { fire with pmc := setupOf5.pmc }
        s.taking .bl = true ∧ s.pmc.ctrl = .eraseSetup 5 ∧ s.incident = true)
      ∧ (let s := { tested with pmc := setupOf5.pmc }
        s.taking .bl = true ∧ s.pmc.ctrl = .eraseSetup 5 ∧ s.testRunning = true)
      ∧ (let s := tell (.eraseSetup .bl (.fields 7)) unlocked5
        s.pmc.ctrl = .eraseSetup 7 ∧ (s.pmc.block 7).lock ≠ .unlocked) := by decide +kernel

theorem witness_the_erase_completion : erasing.mode = .running ∧ ∃ d, erasing.pmc.ctrl = .busy (.erase 5) d :=
  ⟨by decide +kernel, erasing_busy⟩

theorem witness_AWriteFillsItsPositionAtItsCompletion :
    (unlocked5.taking .bl = true ∧ unlocked5.pmc.ctrl = .ready ∧ unlocked5.pmc.flags.any = false
        ∧ unlocked5.pmc.commissioning.debounced = true ∧ unlocked5.incident = false
        ∧ (unlocked5.pmc.block 5).lock = .unlocked ∧ (unlocked5.pmc.block 5).state = .blank
        ∧ unlocked5.pmc.cond 5 31 = .unwritten)
      ∧ ((unlocked5.pmc.block 1).lock ≠ .unlocked ∧ written5.pmc.cond 5 0 ≠ .unwritten)
      ∧ (let s := { fire with pmc := unlocked5.pmc }
        s.taking .bl = true ∧ s.pmc.ctrl = .ready ∧ s.incident = true)
      ∧ writing.mode = .running ∧ Memory.wf writing.pmc.mem = true ∧ blankRecord.length = 128 := by decide +kernel

theorem witness_the_write_completion : ∃ d, writing.pmc.ctrl = .busy (.write 5 0 blankRecord) d :=
  busy_of _ _ (by decide +kernel)

/-- Block 1 LOCKED, VALID and UNLOCKED, OPEN with a plan that fails, OPEN with a plan that passes; block 63 OPEN. -/
theorem witness_ACommitSealsItsBlock :
    (commissioned.taking .bl = true ∧ commissioned.pmc.ctrl = .ready ∧ commissioned.pmc.flags.any = false
        ∧ commissioned.pmc.commissioning.debounced = true ∧ commissioned.incident = false
        ∧ (commissioned.pmc.block 1).lock ≠ .unlocked)
      ∧ ((unlocked5.pmc.block 5).lock = .unlocked ∧ (unlocked5.pmc.block 5).state ≠ .opened)
      ∧ (written5.taking .bl = true ∧ written5.pmc.ctrl = .ready ∧ (written5.pmc.block 5).lock = .unlocked
        ∧ (written5.pmc.block 5).state = .opened ∧ written5.pmc.planValid 5 = false)
      ∧ (let s := withPmc (fun m => m.setBlock 1 { planBlock with commitMark := none, state := .opened, lock := .unlocked }) commissioned
        s.taking .bl = true ∧ (s.pmc.block 1).lock = .unlocked ∧ (s.pmc.block 1).state = .opened ∧ s.pmc.planValid 1 = true)
      ∧ committing.mode = .running ∧ (committing.pmc.block 1).eraseMark = false := by decide +kernel

theorem witness_the_commit_completion : ∃ d, committing.pmc.ctrl = .busy (.commit 1) d :=
  busy_of _ _ (by decide +kernel)

theorem witness_ASuspendedOperationKeepsItsRemainingTime :
    (mall.taking .bl = true ∧ mall.pmc.ctrl = .ready)
      ∧ (erasing.taking .bl = true ∧ ∃ d, erasing.pmc.ctrl = .busy (.erase 5) d)
      ∧ (suspended.taking .bl = true ∧ suspended.incident = false ∧ suspended.pmc.commissioning.debounced = true
        ∧ (suspended.pmc.block 5).lock = .unlocked ∧ ∃ left, suspended.pmc.ctrl = .suspended (.erase 5) left)
      ∧ (caught.taking .bl = true ∧ caught.incident = true)
      ∧ (let s := after .commissioningInputOff suspended
        s.taking .bl = true ∧ s.incident = false ∧ s.pmc.commissioning.debounced = false)
      ∧ (let s := after .commissioningInputOn (after .commissioningInputOff suspended)
        s.taking .bl = true ∧ s.incident = false ∧ s.pmc.commissioning.debounced = true ∧ (s.pmc.block 5).lock ≠ .unlocked) :=
  ⟨by decide +kernel, ⟨by decide +kernel, erasing_busy⟩, ⟨by decide +kernel, by decide +kernel, by decide +kernel,
    by decide +kernel, suspended_left⟩, by decide +kernel, by decide +kernel, by decide +kernel⟩

/-- In BUSY, in READY and in SUSPENDED; a block LOCKED_DOWN; the commissioning input on and off. -/
theorem witness_LocksFollowRequestsAndTheCommissioningInput :
    (erasing.taking .bl = true ∧ erasing.pmc.commissioning.debounced = true ∧ ∃ d, erasing.pmc.ctrl = .busy (.erase 5) d)
      ∧ (mall.taking .bl = true ∧ mall.pmc.ctrl = .ready ∧ mall.pmc.commissioning.debounced = false)
      ∧ (suspended.taking .bl = true ∧ ∃ op left, suspended.pmc.ctrl = .suspended op left)
      ∧ (let s := tell (.lockDown .bl (.fields 7)) commissioned
        s.taking .bl = true ∧ s.pmc.ctrl = .ready ∧ s.pmc.commissioning.debounced = true ∧ (s.pmc.block 7).lock = .lockedDown)
      ∧ (commissioned.taking .bl = true ∧ commissioned.pmc.ctrl = .ready ∧ (commissioned.pmc.block 7).lock ≠ .lockedDown)
      ∧ (erasing.mode = .running ∧ setupOf5.mode = .running ∧ setupOf5.pmc.commissioning.debounced = true
        ∧ setupOf5.pmc.ctrl = .eraseSetup 5) :=
  ⟨⟨by decide +kernel, by decide +kernel, erasing_busy⟩, by decide +kernel, ⟨by decide +kernel, _, suspended_left⟩,
    by decide +kernel, by decide +kernel, by decide +kernel⟩

/-- A setup pending, in READY with a flag set, without the commissioning input, in an incident; each state of the controller at
incident start. -/
theorem witness_ASetupIsBrokenAndIncidentsAreQuiet :
    (setupOf5.taking .bl = true ∧ setupOf5.pmc.ctrl = .eraseSetup 5)
      ∧ (erasing.taking .bl = true ∧ ∃ d, erasing.pmc.ctrl = .busy (.erase 5) d)
      ∧ (suspended.taking .bl = true ∧ ∃ left, suspended.pmc.ctrl = .suspended (.erase 5) left)
      ∧ (let s := withPmc (fun m => { m.raise .write with ctrl := .ready }) unlocked5
        s.taking .bl = true ∧ s.pmc.ctrl = .ready ∧ s.pmc.flags.any = true)
      ∧ (mall.taking .bl = true ∧ mall.pmc.ctrl = .ready ∧ mall.pmc.flags.any = false
        ∧ mall.pmc.commissioning.debounced = false)
      ∧ (let s := { fire with pmc := unlocked5.pmc }
        s.taking .bl = true ∧ s.pmc.ctrl = .ready ∧ s.pmc.flags.any = false ∧ s.pmc.commissioning.debounced = true
          ∧ s.incident = true) :=
  ⟨by decide +kernel, ⟨by decide +kernel, erasing_busy⟩, ⟨by decide +kernel, suspended_left⟩, by decide +kernel,
    by decide +kernel, by decide +kernel⟩

theorem witness_PlanReadsAnswerWhatPlanMemoryHolds :
    (mall.taking .bl = true ∧ mall.pmc.ctrl = .ready ∧ mall.pmc.ctrl.target ≠ some 1 ∧ mall.pmc.cond 1 2 = .written
        ∧ mall.pmc.cond 1 31 = .unwritten)
      ∧ (erasing.taking .bl = true ∧ erasing.pmc.ctrl.target = some 5) ∧ setupOf5.pmc.ctrl = .eraseSetup 5
      ∧ (∃ d, erasing.pmc.ctrl = .busy (.erase 5) d) ∧ ∃ left, suspended.pmc.ctrl = .suspended (.erase 5) left :=
  ⟨by decide +kernel, by decide +kernel, by decide +kernel, erasing_busy, suspended_left⟩

theorem witness_ReadsOnFfAndBlAnswerTheirRecords :
    (mall.taking .ff = true ∧ (mall.supervise .ff).queueOf .ff = some State.resetReports)
      ∧ (starting.taking .bl = true ∧ ((starting.supervise .bl).queueOf .bl).isSome = true
        ∧ (starting.site.works.outcomes 0)[0]? = some ⟨.complete, [], []⟩
        ∧ (starting.site.works.outcomes 0).length < 2)
      ∧ (let s := after (.abortTest .bl (.fields ())) (after (.stepTimeoutExpiry 0) tested)
        (s.supervise .ff).queueOf .ff ≠ none ∧ (s.site.works.ts.records.look 0).steps[0]? = some ⟨.incomplete, [], [0]⟩) := by
  decide +kernel

/-- A zone without a context, with its own plan, with block 0 and with no plan; the three kinds of channel; lists of outcomes
within eight. -/
theorem witness_RecordsHoldTheFieldsOfTheirLayouts :
    mall.site.works.ctx 0 = none ∧ fire.site.works.ctx 0 = some context1 ∧ context1.plan = .own 1
      ∧ ((fire2.site.works.ctx 1).map Ctx.plan = some .none)
      ∧ ((tell (.alarm (.alarm .al1) (.fields 2)) (withPmc (fun m => m.setBlock 0 planBlock) mall)).site.works.ctx 1).map
        Ctx.plan = some .fallback
      ∧ context2.outcomes.length ≤ 8 ∧ (fire.site.works.ts.records.look 0).steps.length ≤ 8
      ∧ mall.plant.chans.look 0 = .damper path1 ∧ mall.plant.chans.look 1 = .fan fan2
      ∧ mall.plant.chans.look 63 = .unassigned := by decide +kernel

theorem witness_AResetBeginsTheStartUpOperation :
    (mall.pmc.ctrl.operating = false ∧ (after .resetInputAsserted mall).mode = .startUp .resetInput true 0
        ∧ mall.mode = .running ∧ mall.plant.chans.look 0 = .damper path1 ∧ mall.plant.chans.look 1 = .fan fan2)
      ∧ (let s := after (.restartController .bl (.fields ())) mall
        s.mode = .running ∧ (s.port .bl).rx = .replying ⟨none, ⟨true, false, none, some (2, 0)⟩, []⟩ ∧ s.restartDue = true)
      ∧ (let r := tested.site.works.ts.records.look 0
        r.outcome = .none ∧ r.start.isSome = true) := by
  decide +kernel

theorem witness_a_reset_cuts_off_an_operation :
    (∃ d, erasing.pmc.ctrl = .busy (.erase 5) d) ∧ (∃ left, suspended.pmc.ctrl = .suspended (.erase 5) left)
      ∧ (∃ d, writing.pmc.ctrl = .busy (.write 5 0 blankRecord) d) ∧ ∃ d, committing.pmc.ctrl = .busy (.commit 1) d :=
  ⟨erasing_busy, suspended_left, witness_the_write_completion, witness_the_commit_completion⟩

theorem witness_TheStartUpOperationSetsEveryBlockAfresh :
    (after .powerOnReset mall).mode = .startUp .powerOn false 0
      ∧ (after .resetInputReleased (after .resetInputAsserted mall)).mode = .startUp .resetInput false 0 := by decide +kernel

/-- Block 63 with three accepted records: port AL1 with a window of 100 s; A01 a path damper and A02 a fan with a minimum speed
of 900 and A01 in its path list; the others UNWRITTEN. -/
def configured : State :=
  let fan : List Byte := [1#8, 0#8, 0x17#8, 0x70#8, 0x03#8, 0x84#8, 0#8, 100#8, 10#8, 0#8, 20#8, 1#8, 1#8]
  let mem := Memory.writeAll (Memory.writeAll (Memory.writeAll [] 258048 [0xA5#8, 100#8]) 258176 [0xA5#8, 0#8]) 258208 fan
  let block : Block := { planBlock with conds := ((Table.all 32 .unwritten).put 0 .written).put 1 .written }
  withPmc (fun m => { m with mem, blocks := m.blocks.put 63 block }) mall

/-- The window is clamped to 60 s, the minimum speed to 800; A01 stays in the path list (R167, R168). -/
theorem test_configuration_is_loaded :
    configured.pmc.windowOf 0 = 60
      ∧ (settledChans (Table.of configured.pmc.writtenChan)).look 1 = .fan ⟨none, 6000, 800, 100, 10, 20, [0]⟩ := by
  decide +kernel

theorem classify_sealed (m : Pmc) (b : BlockId) (h : (m.block b).eraseMark = false) :
    (m.modBlock b fun x => { x with commitMark := some (.sound (m.checksum b)) }).classify b = .valid := by
  have same (c : Nat) : (m.modBlock b fun x => { x with commitMark := some (.sound c) }).checksum b = m.checksum b := by
    simp only [Pmc.checksum, Pmc.recordBytes, Pmc.cond, Pmc.modBlock_block_same, Pmc.modBlock_mem]
    rfl
  simp only [Pmc.classify, Pmc.modBlock_block_same, same, h, Bool.false_eq_true, if_false, if_true]

theorem witness_ConfigurationIsLoadedFromBlock63 :
    (after .powerOnReset configured).mode = .startUp .powerOn false 0
      ∧ (let m := configured.pmc.modBlock 63 fun b => { b with commitMark := some (.sound (configured.pmc.checksum 63)) }
        m.classify 63 = .valid ∧ m.cond 63 0 = .written ∧ byteAt (m.recordBytes 63 0) 0 = 0xA5#8)
      ∧ mall.pmc.classify 63 = .blank :=
  ⟨by decide +kernel, ⟨classify_sealed _ _ (by decide +kernel), by decide +kernel, by decide +kernel⟩, by decide +kernel⟩

/-- After a power-on reset with block 63 BLANK: no block CORRUPT, and every position but the last declined. -/
theorem witness_StartUpReportsWhatItFound :
    let s := after .powerOnReset State.reset
    let place (a : ActId) : PosId := ⟨1 + a.val / 4, by omega⟩
    let defaulted := (List.finRange 32).filter fun q : PosId => decide (q.val < 30)
    s.mode = .startUp .powerOn false 0 ∧ s.now = 0 ∧ s.plant.ffReports = ⟨[], 0⟩ ∧ s.plant.blReports = ⟨[], 0⟩
      ∧ (∀ b, s.pmc.classify b ≠ .corrupt) ∧ defaulted.Pairwise (fun q k => q.val < k.val)
      ∧ (∀ q, s.pmc.cond 63 q = .unwritten) ∧ (∀ q, q ∈ defaulted ↔ q.val ≤ 30 ∧ ¬ q.val = 30)
      ∧ ∀ a, s.pmc.cond 63 (place a) ≠ .written := by decide +kernel

end Sys2Proof.Tests
end

section
/-!
SUPPORT. The order of the lists that are kept by a key: members and sortedness of `insertByKey` and `sortByKey`.
-/

namespace Sys2Proof.Machine

section
variable {α : Type} (key : α → Nat)

theorem insertByKey_perm (x : α) (l : List α) : (insertByKey key x l).Perm (x :: l) := by
  induction l with
  | nil => exact .refl _
  | cons y ys ih =>
    unfold insertByKey
    split
    · exact .refl _
    · exact (ih.cons y).trans (.swap x y ys)

@[simp] theorem mem_insertByKey {x y : α} {l : List α} : y ∈ insertByKey key x l ↔ y = x ∨ y ∈ l := by
  rw [(insertByKey_perm key x l).mem_iff, List.mem_cons]

/-- Insertion keeps a list in strictly rising order of its keys, where no member has the key of the new one. -/
theorem insertByKey_pairwise {x : α} {l : List α} (h : l.Pairwise fun a b => key a < key b)
    (hx : ∀ y ∈ l, key y ≠ key x) : (insertByKey key x l).Pairwise fun a b => key a < key b := by
  induction l with
  | nil => simp [insertByKey]
  | cons y ys ih =>
    obtain ⟨hy, hys⟩ := List.pairwise_cons.mp h
    have hne : key y ≠ key x := hx y List.mem_cons_self
    unfold insertByKey
    split
    case isTrue hlt =>
      refine List.pairwise_cons.mpr ⟨fun b hb => ?_, h⟩
      obtain rfl | hb := List.mem_cons.mp hb
      · exact hlt
      · exact hlt.trans (hy b hb)
    case isFalse hle =>
      refine List.pairwise_cons.mpr ⟨fun b hb => ?_, ih hys fun b hb => hx b (List.mem_cons_of_mem _ hb)⟩
      obtain rfl | hb := (mem_insertByKey key).mp hb
      · omega
      · exact hy b hb

/-- A new member whose key is above every other goes to the end. -/
theorem insertByKey_eq_append {x : α} {l : List α} (h : ∀ y ∈ l, key y ≤ key x) : insertByKey key x l = l ++ [x] := by
  induction l with
  | nil => rfl
  | cons y ys ih =>
    have hy : ¬ key x < key y := Nat.not_lt.mpr (h y List.mem_cons_self)
    rw [insertByKey, if_neg hy, ih fun b hb => h b (List.mem_cons_of_mem _ hb), List.cons_append]

theorem sortByKey_foldl_perm (l acc : List α) :
    (l.foldl (fun acc x => insertByKey key x acc) acc).Perm (acc ++ l) := by
  induction l generalizing acc with
  | nil => simp
  | cons x l ih =>
    exact (ih _).trans (((insertByKey_perm key x acc).append_right l).trans List.perm_middle.symm)

theorem sortByKey_perm (l : List α) : (sortByKey key l).Perm l := sortByKey_foldl_perm key l []

@[simp] theorem mem_sortByKey {x : α} {l : List α} : x ∈ sortByKey key l ↔ x ∈ l := (sortByKey_perm key l).mem_iff

theorem insertByKey_pairwise_le {x : α} {l : List α} (h : l.Pairwise fun a b => key a ≤ key b) :
    (insertByKey key x l).Pairwise fun a b => key a ≤ key b := by
  induction l with
  | nil => simp [insertByKey]
  | cons y ys ih =>
    obtain ⟨hy, hys⟩ := List.pairwise_cons.mp h
    unfold insertByKey
    split
    case isTrue hlt =>
      refine List.pairwise_cons.mpr ⟨fun b hb => ?_, h⟩
      obtain rfl | hb := List.mem_cons.mp hb
      · exact hlt.le
      · exact hlt.le.trans (hy b hb)
    case isFalse hle =>
      refine List.pairwise_cons.mpr ⟨fun b hb => ?_, ih hys⟩
      obtain rfl | hb := (mem_insertByKey key).mp hb
      · exact Nat.not_lt.mp hle
      · exact hy b hb

/-- A sorted list stands in rising order of its keys. -/
theorem sortByKey_pairwise (l : List α) : (sortByKey key l).Pairwise fun a b => key a ≤ key b := by
  unfold sortByKey
  generalize hacc : ([] : List α) = acc
  have h : acc.Pairwise fun a b => key a ≤ key b := hacc ▸ .nil
  clear hacc
  induction l generalizing acc with
  | nil => exact h
  | cons x l ih => exact ih _ (insertByKey_pairwise_le key h)

end

end Sys2Proof.Machine
end

section
/-!
SUPPORT. What the Plan Executor does to the works: how the evaluation of one zone leaves every other zone's context alone, how
a context goes on (R35, R38), and what settling, withdrawal and the beginning of a plan leave of each zone.
-/

namespace Sys2Proof.Machine

/-! ### Contexts and originators -/

section
variable (w : Works) (z : ZoneId) (g : Ctx → Ctx)

@[simp] theorem Works.modCtx_plant : (w.modCtx z g).plant = w.plant := by
  unfold Works.modCtx; split <;> rfl

@[simp] theorem Works.modCtx_ts : (w.modCtx z g).ts = w.ts := by
  unfold Works.modCtx; split <;> rfl

@[simp] theorem Works.modCtx_ctx_same : (w.modCtx z g).ctx z = (w.ctx z).map g := by
  unfold Works.modCtx; split <;> simp [*]

@[simp] theorem Works.modCtx_ctx_other (y : ZoneId) (h : y ≠ z) : (w.modCtx z g).ctx y = w.ctx y := by
  unfold Works.modCtx; split <;> simp [h]

@[simp] theorem Works.report_ctx (k : ReportKind) (u : Option Subject) (n : Option NewState) (d : Option Detail) :
    (w.report k u n d).ctx = w.ctx := rfl

@[simp] theorem Works.onPlant_ctx (f : Plant → Plant) : (w.onPlant f).ctx = w.ctx := rfl

/-- A zone without a context has it already removed. -/
theorem Works.setCtx_none_of_ctx (h : w.ctx z = none) : w.setCtx z none = w := by
  unfold Works.setCtx
  rw [← h]
  exact congrArg (fun t => { w with px := t }) (Table.put_look w.px z)

end

/-- The demand list of channel `a` holds an entry of originator `o`. -/
def Plant.Names (x : Plant) (a : ActId) (o : Originator) : Prop := ∃ e ∈ x.demands.look a, e.orig = o

/-- A context that has gone on from `c` to `k` (R38): the same plan and class, no step taken back, no outcome lost, no demand
given up. -/
structure Ctx.Extends (c k : Ctx) : Prop where
  plan : k.plan = c.plan
  cls : k.cls = c.cls
  step : c.step ≤ k.step
  outcomes : c.outcomes <+: k.outcomes
  holds : ∀ a, c.holds a = true → k.holds a = true

theorem Ctx.Extends.refl (c : Ctx) : c.Extends c := ⟨rfl, rfl, le_rfl, List.prefix_rfl, fun _ h => h⟩

theorem Ctx.Extends.trans {c k l : Ctx} (h : c.Extends k) (i : k.Extends l) : c.Extends l :=
  ⟨i.plan.trans h.plan, i.cls.trans h.cls, h.step.trans i.step, h.outcomes.trans i.outcomes,
    fun a e => i.holds a (h.holds a e)⟩

theorem Ctx.holds_iff (c : Ctx) (a : ActId) : c.holds a = true ↔ ∃ r ∈ c.posted, r.1 = a := by
  simp [Ctx.holds]

/-- A posted table holds an actuator once recorded, and loses none (R30). -/
theorem exists_mem_recordPosted (a b : ActId) (p : Position) (l : List (ActId × Position)) :
    (∃ r ∈ recordPosted b p l, r.1 = a) ↔ a = b ∨ ∃ r ∈ l, r.1 = a := by
  unfold recordPosted
  simp only [mem_insertByKey, List.mem_filter, bne_iff_ne]
  constructor
  · rintro ⟨r, rfl | ⟨hr, -⟩, rfl⟩
    · exact .inl rfl
    · exact .inr ⟨r, hr, rfl⟩
  · rintro (rfl | ⟨r, hr, rfl⟩)
    · exact ⟨_, .inl rfl, rfl⟩
    · by_cases e : r.1 = b
      · exact ⟨(b, p), .inl rfl, e.symm⟩
      · exact ⟨r, .inr ⟨hr, e⟩, rfl⟩

/-- An entry of a list in which a demand has been placed is that demand or has the originator of an entry before. -/
theorem mem_placeDemand {order : List ZoneId} {d e : Demand} {l : List Demand} (h : e ∈ placeDemand order d l) :
    e = d ∨ ∃ f ∈ l, f.orig = e.orig := by
  unfold placeDemand at h
  split at h
  · obtain ⟨f, hf, rfl⟩ := List.mem_map.mp h
    split
    · exact .inl rfl
    · exact .inr ⟨f, hf, rfl⟩
  · obtain rfl | h := (mem_insertByKey _).mp h
    · exact .inl rfl
    · exact .inr ⟨e, h, rfl⟩

theorem mem_dropOriginator {o : Originator} {e : Demand} {l : List Demand} :
    e ∈ dropOriginator o l ↔ e ∈ l ∧ e.orig ≠ o := by
  simp [dropOriginator]

section
variable (x : Plant) (a b : ActId) (o p : Originator) (order : List ZoneId)

theorem Plant.setDemands_look (l : List Demand) :
    (x.setDemands b l).demands.look a = if a = b then l else x.demands.look a := by
  rw [Plant.setDemands_demands, Table.look_put]

/-- A list names the originator of a demand placed in it and those it named before. -/
theorem Plant.names_of_names_post (d : Demand) (h : (x.post order b d).Names a o) :
    x.Names a o ∨ (a = b ∧ o = d.orig) := by
  obtain ⟨e, he, rfl⟩ := h
  unfold Plant.post at he
  rw [Plant.setDemands_look] at he
  split at he
  case isTrue hab =>
    subst hab
    obtain rfl | ⟨f, hf, hfe⟩ := mem_placeDemand he
    · exact .inr ⟨rfl, rfl⟩
    · exact .inl ⟨f, hf, hfe⟩
  case isFalse => exact .inl ⟨e, he, rfl⟩

/-- A list from which an originator is dropped names the others alone. -/
theorem Plant.names_drop : (x.drop p b).Names a o ↔ x.Names a o ∧ ¬ (a = b ∧ o = p) := by
  unfold Plant.Names Plant.drop
  simp only [Plant.setDemands_look]
  by_cases hab : a = b
  · subst hab
    simp only [if_true, mem_dropOriginator, true_and]
    constructor
    · rintro ⟨e, ⟨he, hne⟩, rfl⟩; exact ⟨⟨e, he, rfl⟩, hne⟩
    · rintro ⟨⟨e, he, rfl⟩, hne⟩; exact ⟨e, ⟨he, hne⟩, rfl⟩
  · simp [hab]

theorem Plant.names_reorder : (x.reorder order b).Names a o ↔ x.Names a o := by
  unfold Plant.Names Plant.reorder
  simp only [Plant.setDemands_look]
  by_cases hab : a = b
  · subst hab; simp
  · simp [hab]

@[simp] theorem Plant.post_now (d : Demand) : (x.post order b d).now = x.now := x.setDemands_now b _
@[simp] theorem Plant.drop_now : (x.drop p b).now = x.now := x.setDemands_now b _
@[simp] theorem Plant.reorder_now : (x.reorder order b).now = x.now := x.setDemands_now b _

end

/-! ### One zone at work -/

/-- From `w` to `v` zone `z` alone has executed: the Timebase stands, the test keeps its zone, every other context is as it
was, and the lists name no new originator but `z`, and that only where its context holds the channel. -/
structure Works.Steps (z : ZoneId) (w v : Works) : Prop where
  now : v.plant.now = w.plant.now
  test : v.ts.test.map Test.zone = w.ts.test.map Test.zone
  idle : w.ctx z = none → v.ctx z = none
  goesOn : ∀ c, w.ctx z = some c → ∃ k, v.ctx z = some k ∧ c.Extends k
  other : ∀ y, y ≠ z → v.ctx y = w.ctx y
  names : ∀ a o, v.plant.Names a o → w.plant.Names a o ∨ (o = .zone z ∧ ∃ k, v.ctx z = some k ∧ k.holds a = true)

theorem Works.Steps.refl (z : ZoneId) (w : Works) : Works.Steps z w w :=
  ⟨rfl, rfl, id, fun c h => ⟨c, h, .refl c⟩, fun _ _ => rfl, fun _ _ => .inl⟩

theorem Works.Steps.trans {z : ZoneId} {u v w : Works} (h : Works.Steps z u v) (i : Works.Steps z v w) :
    Works.Steps z u w where
  now := i.now.trans h.now
  test := i.test.trans h.test
  idle e := i.idle (h.idle e)
  goesOn c e := by
    obtain ⟨k, hk, hck⟩ := h.goesOn c e
    obtain ⟨l, hl, hkl⟩ := i.goesOn k hk
    exact ⟨l, hl, hck.trans hkl⟩
  other y e := (i.other y e).trans (h.other y e)
  names a o n := by
    obtain n | n := i.names a o n
    · obtain n | ⟨ho, k, hk, hka⟩ := h.names a o n
      · exact .inl n
      · obtain ⟨l, hl, hkl⟩ := i.goesOn k hk
        exact .inr ⟨ho, l, hl, hkl.holds a hka⟩
    · exact .inr n

theorem Works.Steps.foldl {α : Type} {z : ZoneId} {g : Works → α → Works} (hg : ∀ w a, Works.Steps z w (g w a)) (l : List α)
    (w : Works) : Works.Steps z w (l.foldl g w) := by
  induction l generalizing w with
  | nil => exact .refl z w
  | cons a l ih => exact (hg w a).trans (ih _)

section
variable (m : Pmc) (order : List ZoneId) (z : ZoneId) (w : Works)

theorem Works.report_steps (k : ReportKind) (u : Option Subject) (n : Option NewState) (d : Option Detail) :
    Works.Steps z w (w.report k u n d) :=
  ⟨rfl, rfl, id, fun c h => ⟨c, h, .refl c⟩, fun _ _ => rfl, fun _ _ => .inl⟩

/-- A change of the Test Sequencer that keeps its test is none of the zone's. -/
theorem Works.ts_steps (t : TestSeq) (h : t.test.map Test.zone = w.ts.test.map Test.zone) :
    Works.Steps z w { w with ts := t } :=
  ⟨rfl, h, id, fun c h => ⟨c, h, .refl c⟩, fun _ _ => rfl, fun _ _ => .inl⟩

theorem Works.modCtx_steps (g : Ctx → Ctx) (hg : ∀ c, w.ctx z = some c → c.Extends (g c)) :
    Works.Steps z w (w.modCtx z g) where
  now := by simp
  test := by simp
  idle h := by simp [h]
  goesOn c h := ⟨g c, by simp [h], hg c h⟩
  other y h := by simp [h]
  names a o h := .inl (by simpa using h)

/-- The posting of one entry is the zone's own work (R29). -/
theorem Works.postEntry_steps (k : Nat) (e : PlanEntry) : Works.Steps z w (Works.postEntry order z k w e) := by
  unfold Works.postEntry
  split
  · exact .refl z w
  rename_i c hc
  dsimp only
  split
  · refine Works.Steps.trans ?_ (Works.report_steps ..)
    exact w.modCtx_steps z _ fun c _ => ⟨rfl, rfl, le_rfl, List.prefix_rfl, fun _ h => h⟩
  generalize hv : (if c.cls = .test ∧ (w.plant.chans.look e.act).isFault ∧ !c.holds e.act then
      { w with ts := w.ts.addFinding (faultFinding e.act (w.plant.lastTravel e.act)) } else w) = v
  have found : Works.Steps z w v := by
    subst hv
    split
    · exact w.ts_steps z _ (by rw [TestSeq.addFinding_test])
    · exact .refl z w
  refine found.trans ⟨by simp, by simp, fun h => by simp [h], fun d hd => ?_, fun y h => by simp [h], fun a o n => ?_⟩
  · rw [Works.modCtx_ctx_same, Works.onPlant_ctx, hd, Option.map_some]
    refine ⟨_, rfl, rfl, rfl, le_rfl, List.prefix_rfl, fun a h => ?_⟩
    rw [Ctx.holds_iff] at h ⊢
    exact (exists_mem_recordPosted ..).mpr (.inr h)
  · rw [Works.modCtx_plant] at n
    obtain n | ⟨rfl, rfl⟩ := Plant.names_of_names_post _ _ _ _ _ _ n
    · exact .inl n
    · obtain ⟨d, hd, -⟩ := found.goesOn c hc
      rw [Works.modCtx_ctx_same, Works.onPlant_ctx, hd, Option.map_some]
      refine .inr ⟨rfl, _, rfl, ?_⟩
      rw [Ctx.holds_iff]
      exact (exists_mem_recordPosted ..).mpr (.inl rfl)

/-- Entry to a step not before the present one is the zone's own work (R29). -/
theorem Works.enterStep_steps (k : Nat) (hk : ∀ c, w.ctx z = some c → c.step ≤ k) :
    Works.Steps z w (w.enterStep m order z k) := by
  unfold Works.enterStep
  split
  · exact .refl z w
  split
  · exact .refl z w
  · dsimp only
    refine Works.Steps.trans ?_ (Works.modCtx_steps z _ _ fun c _ => ?_)
    · refine Works.Steps.trans ?_ (Works.Steps.foldl (fun v e => Works.postEntry_steps order z v k e) _ _)
      exact w.modCtx_steps z _ fun c h => ⟨rfl, rfl, hk c h, List.prefix_rfl, fun _ h => h⟩
    · exact ⟨rfl, rfl, le_rfl, List.prefix_rfl, fun _ h => h⟩

theorem Works.established_steps : Works.Steps z w (w.established z) := by
  unfold Works.established
  split
  · rename_i u hu
    split
    · exact w.ts_steps z _ (by simp [hu])
    · exact .refl z w
  · exact .refl z w

theorem Works.advance_steps : Works.Steps z w (w.advance m order z) := by
  unfold Works.advance
  split
  · exact .refl z w
  rename_i c hc
  split
  · refine w.enterStep_steps m order z _ fun d hd => ?_
    rw [hc, Option.some_inj] at hd
    exact hd ▸ Nat.le_succ _
  · refine Works.Steps.trans ?_ (Works.established_steps ..)
    exact w.modCtx_steps z _ fun c _ => ⟨rfl, rfl, le_rfl, List.prefix_rfl, fun _ h => h⟩

theorem Works.endComplete_steps : Works.Steps z w (w.endComplete m order z) := by
  unfold Works.endComplete
  split
  · exact .refl z w
  · refine Works.Steps.trans (Works.Steps.trans ?_ (Works.report_steps ..)) (Works.advance_steps ..)
    exact w.modCtx_steps z _ fun c _ => ⟨rfl, rfl, le_rfl, List.prefix_append .., fun _ h => h⟩

theorem Works.endIncomplete_steps : Works.Steps z w (w.endIncomplete m order z) := by
  unfold Works.endIncomplete
  split
  · exact .refl z w
  · refine Works.Steps.trans (Works.Steps.trans ?_ (Works.report_steps ..)) (Works.advance_steps ..)
    exact w.modCtx_steps z _ fun c _ => ⟨rfl, rfl, le_rfl, List.prefix_append .., fun _ h => h⟩

end

/-! ### Every zone at work -/

/-- What a change of the works that neither begins nor ends the execution of zone `z` leaves of it: its context goes on, and
does not move at all unless its dwell has expired (R35); a list names it newly only where its context holds the channel. -/
structure Works.Follows (z : ZoneId) (w v : Works) : Prop where
  idle : w.ctx z = none → v.ctx z = none
  goesOn : ∀ c, w.ctx z = some c → ∃ k, v.ctx z = some k ∧ c.Extends k
  kept : ∀ c, w.ctx z = some c → c.dwell ≠ .expired → v.ctx z = some c
  names : ∀ a, v.plant.Names a (.zone z) → w.plant.Names a (.zone z) ∨ ∃ k, v.ctx z = some k ∧ k.holds a = true

theorem Works.Follows.refl (z : ZoneId) (w : Works) : Works.Follows z w w :=
  ⟨id, fun c h => ⟨c, h, .refl c⟩, fun _ h _ => h, fun _ => .inl⟩

theorem Works.Follows.trans {z : ZoneId} {u v w : Works} (h : Works.Follows z u v) (i : Works.Follows z v w) :
    Works.Follows z u w where
  idle e := i.idle (h.idle e)
  goesOn c e := by
    obtain ⟨k, hk, hck⟩ := h.goesOn c e
    obtain ⟨l, hl, hkl⟩ := i.goesOn k hk
    exact ⟨l, hl, hck.trans hkl⟩
  kept c e d := i.kept c (h.kept c e d) d
  names a n := by
    obtain n | n := i.names a n
    · obtain n | ⟨k, hk, hka⟩ := h.names a n
      · exact .inl n
      · obtain ⟨l, hl, hkl⟩ := i.goesOn k hk
        exact .inr ⟨l, hl, hkl.holds a hka⟩
    · exact .inr n

/-- A zone whose context and entries stand as they were has followed. -/
theorem Works.Follows.of_same {z : ZoneId} {w v : Works} (hc : v.ctx z = w.ctx z)
    (hn : ∀ a, v.plant.Names a (.zone z) → w.plant.Names a (.zone z)) : Works.Follows z w v :=
  ⟨fun h => hc.trans h, fun c h => ⟨c, hc.trans h, .refl c⟩, fun _ h _ => hc.trans h, fun a h => .inl (hn a h)⟩

theorem Works.Follows.isSome {z : ZoneId} {w v : Works} (h : Works.Follows z w v) :
    (v.ctx z).isSome = (w.ctx z).isSome := by
  cases hc : w.ctx z with
  | none => rw [h.idle hc]
  | some c =>
    obtain ⟨k, hk, -⟩ := h.goesOn c hc
    rw [hk]; rfl

/-- From `w` to `v` zones have executed and none has begun or ended: the Timebase stands, the test keeps its zone, every zone
has followed, and no list names BL newly. -/
structure Works.Evolves (w v : Works) : Prop where
  now : v.plant.now = w.plant.now
  test : v.ts.test.map Test.zone = w.ts.test.map Test.zone
  follows : ∀ z, Works.Follows z w v
  normals : ∀ a, v.plant.Names a .bl → w.plant.Names a .bl

theorem Works.Evolves.refl (w : Works) : Works.Evolves w w := ⟨rfl, rfl, fun z => .refl z w, fun _ => id⟩

theorem Works.Evolves.trans {u v w : Works} (h : Works.Evolves u v) (i : Works.Evolves v w) : Works.Evolves u w :=
  ⟨i.now.trans h.now, i.test.trans h.test, fun z => (h.follows z).trans (i.follows z), fun a n => h.normals a (i.normals a n)⟩

theorem Works.Evolves.foldl {α : Type} {g : Works → α → Works} (hg : ∀ w a, Works.Evolves w (g w a)) (l : List α)
    (w : Works) : Works.Evolves w (l.foldl g w) := by
  induction l generalizing w with
  | nil => exact .refl w
  | cons a l ih => exact (hg w a).trans (ih _)

/-- A change that leaves the contexts, the test's zone and the Timebase, and names no originator newly. -/
theorem Works.Evolves.of_same {w v : Works} (hn : v.plant.now = w.plant.now)
    (ht : v.ts.test.map Test.zone = w.ts.test.map Test.zone) (hc : v.px = w.px)
    (hd : ∀ a o, v.plant.Names a o → w.plant.Names a o) : Works.Evolves w v := by
  have hctx (z : ZoneId) : v.ctx z = w.ctx z := by simp [Works.ctx, hc]
  exact ⟨hn, ht, fun z => .of_same (hctx z) fun a => hd a _, fun a => hd a _⟩

/-- The other zones follow the work of one zone. -/
theorem Works.Steps.follows {z y : ZoneId} {w v : Works} (h : Works.Steps z w v) (e : y ≠ z) : Works.Follows y w v := by
  refine .of_same (h.other y e) fun a n => ?_
  obtain n | ⟨ho, -⟩ := h.names a _ n
  · exact n
  · exact absurd (Originator.zone.inj ho) e

theorem Works.Steps.normals {z : ZoneId} {w v : Works} (h : Works.Steps z w v) (a : ActId) (n : v.plant.Names a .bl) :
    w.plant.Names a .bl := by
  obtain n | ⟨ho, -⟩ := h.names a _ n
  · exact n
  · cases ho

/-- A zone at work whose dwell had expired is an evolution of the works. -/
theorem Works.Steps.evolves {z : ZoneId} {w v : Works} (h : Works.Steps z w v)
    (hd : ∀ c, w.ctx z = some c → c.dwell = .expired) : Works.Evolves w v := by
  refine ⟨h.now, h.test, fun y => ?_, h.normals⟩
  by_cases e : y = z
  · subst e
    refine ⟨h.idle, h.goesOn, fun c hc hne => absurd (hd c hc) hne, fun a n => ?_⟩
    obtain n | ⟨-, n⟩ := h.names a _ n
    · exact .inl n
    · exact .inr n
  · exact h.follows e

section
variable (m : Pmc) (order : List ZoneId) (z : ZoneId) (w : Works)

/-- An evaluation ends a step only where the dwell has expired (R34, R35). -/
theorem Works.judge_evolves : Works.Evolves w (w.judge m order z) := by
  unfold Works.judge
  split
  · exact .refl w
  rename_i c hc
  split
  · rename_i hj
    refine (w.endComplete_steps m order z).evolves fun d hd => ?_
    rw [hc, Option.some_inj] at hd
    exact hd ▸ hj.2.1
  · exact .refl w

theorem Works.takeNotes_evolves : Works.Evolves w w.takeNotes := by
  obtain ⟨hp, hx, ht⟩ := w.takeNotes_keeps
  exact .of_same (by rw [hp]) (by rw [ht]) hx fun a o h => by rwa [hp] at h

theorem Works.round_evolves : Works.Evolves w (w.round m order) :=
  Works.round_keeps (Works.Evolves w) m order
    (fun _ h => h.trans (.of_same rfl rfl rfl fun _ _ => id)) (fun z v h => h.trans (v.judge_evolves m order z)) w (.refl w)

/-- Settling is an evolution of the works (R34, R51). -/
theorem Works.settle_evolves : Works.Evolves w (w.settle m order) :=
  Works.settle_keeps (Works.Evolves w) m order (fun v h => h.trans v.takeNotes_evolves)
    (fun v h => h.trans (v.round_evolves m order)) w (.refl w)

theorem Works.drop_settle_evolves (o : Originator) (a : ActId) :
    Works.Evolves w ((w.onPlant fun x => x.drop o a).settle m order) :=
  (Works.Evolves.of_same (w := w) (v := w.onPlant fun x => x.drop o a) (by simp) rfl rfl
    fun b p n => ((w.plant.names_drop b a p o).mp n).1).trans (Works.settle_evolves ..)

theorem Works.reorder_evolves : Works.Evolves w (w.reorder m order) :=
  Works.Evolves.foldl (fun v a => (Works.Evolves.of_same (w := v) (v := v.onPlant fun x => x.reorder order a) (by simp) rfl rfl
    fun b p n => (v.plant.names_reorder b a p order).mp n).trans (Works.settle_evolves ..)) allActs w

theorem Works.withdrawNormals_evolves : Works.Evolves w (w.withdrawNormals m order) :=
  Works.Evolves.foldl (fun v a => v.drop_settle_evolves m order .bl a) allActs w

/-- After the withdrawal of the NORMAL entries no list names BL (R60). -/
theorem Works.withdrawNormals_names (a : ActId) : ¬ (w.withdrawNormals m order).plant.Names a .bl := by
  have gone (l : List ActId) (v : Works) (h : a ∈ l ∨ ¬ v.plant.Names a .bl) :
      ¬ (l.foldl (fun w b => (w.onPlant fun x => x.drop .bl b).settle m order) v).plant.Names a .bl := by
    induction l generalizing v with
    | nil => exact h.resolve_left (by simp)
    | cons b l ih =>
      apply ih
      by_cases hl : a ∈ l
      · exact .inl hl
      · refine .inr fun n => ?_
        have n := (Works.settle_evolves m order _).normals a n
        obtain ⟨n, hne⟩ := (Plant.names_drop ..).mp n
        obtain h | h := h
        · exact hne ⟨(List.mem_cons.mp h).resolve_right hl, rfl⟩
        · exact h n
  exact gone allActs w (.inl (List.mem_finRange a))

/-! ### The end and the beginning of execution -/

/-- A zone's withdrawal removes its context, and is otherwise an evolution (R42). -/
theorem Works.withdraw_evolves : Works.Evolves (w.setCtx z none) (w.withdraw m order z) := by
  unfold Works.withdraw
  split
  · rename_i h
    rw [w.setCtx_none_of_ctx z h]
    exact .refl w
  · exact Works.Evolves.foldl (fun (v : Works) (r : ActId × Position) => v.drop_settle_evolves m order (.zone z) r.1) _ _

theorem Works.withdraw_ctx_same : (w.withdraw m order z).ctx z = none :=
  ((w.withdraw_evolves m order z).follows z).idle (by simp)

theorem Works.withdraw_now : (w.withdraw m order z).plant.now = w.plant.now := (w.withdraw_evolves m order z).now

theorem Works.withdraw_test : (w.withdraw m order z).ts.test.map Test.zone = w.ts.test.map Test.zone :=
  (w.withdraw_evolves m order z).test

theorem Works.withdraw_follows {y : ZoneId} (e : y ≠ z) : Works.Follows y w (w.withdraw m order z) :=
  (Works.Follows.of_same (w := w) (v := w.setCtx z none) (by simp [e]) fun _ => id).trans
    ((w.withdraw_evolves m order z).follows y)

/-- Every entry that the lists hold of zone `z` stands in its posted table (R42). -/
def Works.Covers (z : ZoneId) (w : Works) : Prop :=
  ∀ a, w.plant.Names a (.zone z) → ∃ c, w.ctx z = some c ∧ c.holds a = true

theorem Works.Covers.follow {z : ZoneId} {w v : Works} (h : w.Covers z) (f : Works.Follows z w v) : v.Covers z := by
  intro a n
  obtain n | n := f.names a n
  · obtain ⟨c, hc, ha⟩ := h a n
    obtain ⟨k, hk, hck⟩ := f.goesOn c hc
    exact ⟨k, hk, hck.holds a ha⟩
  · exact n

/-- A zone that is not executing has no entry in any list. -/
theorem Works.Covers.not_names {z : ZoneId} {w : Works} (h : w.Covers z) (hc : w.ctx z = none) (a : ActId) :
    ¬ w.plant.Names a (.zone z) := by
  intro n
  obtain ⟨c, hs, -⟩ := h a n
  rw [hc] at hs
  cases hs

/-- After its withdrawal no list names the zone (R42). -/
theorem Works.withdraw_covers (h : w.Covers z) : (w.withdraw m order z).Covers z := by
  unfold Works.withdraw
  split
  · exact h
  rename_i c hc
  have gone (l : List (ActId × Position)) (v : Works) (hv : v.ctx z = none)
      (hl : ∀ a, v.plant.Names a (.zone z) → ∃ r ∈ l, r.1 = a) :
      (l.foldl (fun w r => (w.onPlant fun x => x.drop (.zone z) r.1).settle m order) v).Covers z := by
    induction l generalizing v with
    | nil => exact fun a n => by simpa using hl a n
    | cons r l ih =>
      have step := v.drop_settle_evolves m order (.zone z) r.1
      refine ih _ ((step.follows z).idle hv) fun a n => ?_
      have settled := (Works.settle_evolves m order (v.onPlant fun x => x.drop (.zone z) r.1)).follows z
      obtain n | ⟨k, hk, -⟩ := settled.names a n
      · obtain ⟨n, hne⟩ := (Plant.names_drop ..).mp n
        obtain ⟨q, hq, rfl⟩ := hl a n
        obtain rfl | hq := List.mem_cons.mp hq
        · exact absurd ⟨rfl, rfl⟩ hne
        · exact ⟨q, hq, rfl⟩
      · rw [(step.follows z).idle hv] at hk
        cases hk
  refine gone _ _ (by simp) fun a n => ?_
  obtain ⟨d, hd, ha⟩ := h a n
  rw [hc, Option.some_inj] at hd
  exact (Ctx.holds_iff ..).mp (hd ▸ ha)

/-- A context that has just begun a plan: at step 1 with no step ended and its dwell not expired (R20, R29). -/
structure Ctx.Fresh (plan : PlanInUse) (cls : ExecClass) (c : Ctx) : Prop where
  plan : c.plan = plan
  cls : c.cls = cls
  step : c.step = 1
  outcomes : c.outcomes = []
  dwell : c.dwell ≠ .expired

theorem Works.modCtx_fresh {plan : PlanInUse} {cls : ExecClass} (g : Ctx → Ctx)
    (hg : ∀ c, Ctx.Fresh plan cls c → Ctx.Fresh plan cls (g c)) (h : ∃ c, w.ctx z = some c ∧ Ctx.Fresh plan cls c) :
    ∃ c, (w.modCtx z g).ctx z = some c ∧ Ctx.Fresh plan cls c := by
  obtain ⟨c, hc, hf⟩ := h
  exact ⟨g c, by simp [hc], hg c hf⟩

theorem Works.postEntry_fresh {plan : PlanInUse} {cls : ExecClass} (k : Nat) (e : PlanEntry)
    (h : ∃ c, w.ctx z = some c ∧ Ctx.Fresh plan cls c) :
    ∃ c, (Works.postEntry order z k w e).ctx z = some c ∧ Ctx.Fresh plan cls c := by
  unfold Works.postEntry
  split
  · exact h
  · dsimp only
    split
    · exact Works.modCtx_fresh z w _ (fun c f => ⟨f.1, f.2, f.3, f.4, f.5⟩) h
    · refine Works.modCtx_fresh z _ _ (fun c f => ⟨f.1, f.2, f.3, f.4, f.5⟩) ?_
      split <;> exact h

theorem Works.enterStep_fresh {plan : PlanInUse} {cls : ExecClass} (h : ∃ c, w.ctx z = some c ∧ Ctx.Fresh plan cls c) :
    ∃ c, (w.enterStep m order z 1).ctx z = some c ∧ Ctx.Fresh plan cls c := by
  unfold Works.enterStep
  split
  · exact h
  split
  · exact h
  dsimp only
  refine Works.modCtx_fresh z _ _ (fun c f => ⟨f.1, f.2, f.3, f.4, by simp⟩) ?_
  generalize Pmc.planStep .. = r
  have start := Works.modCtx_fresh z w
    (fun c => { c with step := 1, phase := .sequencing, proof := [], dwell := .stopped, timeout := none })
    (fun c f => ⟨f.1, f.2, rfl, f.4, by simp⟩) h
  revert start
  generalize Works.modCtx .. = v
  intro start
  induction r.entries generalizing v with
  | nil => exact start
  | cons e l ih => exact ih _ (Works.postEntry_fresh order z v 1 e start)

/-- A zone that has been given a context at step 1 enters that step, and the works settle (R20, R29). -/
theorem Works.enterFirst_spec {plan : PlanInUse} {cls : ExecClass} (v : Works) (c : Ctx) (hf : Ctx.Fresh plan cls c)
    (hctx : v.ctx = (w.setCtx z (some c)).ctx) (hnow : v.plant.now = w.plant.now) (hts : v.ts = w.ts)
    (hdem : v.plant.demands = w.plant.demands) :
    let u := (v.enterStep m order z 1).settle m order
    (∃ c, u.ctx z = some c ∧ Ctx.Fresh plan cls c) ∧ u.plant.now = w.plant.now
      ∧ u.ts.test.map Test.zone = w.ts.test.map Test.zone ∧ ∀ y, y ≠ z → Works.Follows y w u := by
  have hvz : v.ctx z = some c := by rw [hctx]; simp
  have entered := v.enterStep_steps m order z 1 fun d hd => by
    rw [hvz, Option.some_inj] at hd
    exact hd ▸ hf.step.le
  have settled := Works.settle_evolves m order (v.enterStep m order z 1)
  refine ⟨?_, settled.now.trans (entered.now.trans hnow), settled.test.trans (entered.test.trans (by rw [hts])), fun y e => ?_⟩
  · obtain ⟨d, hd, hf⟩ := Works.enterStep_fresh m order z v ⟨c, hvz, hf⟩
    exact ⟨d, (settled.follows z).kept d hd hf.dwell, hf⟩
  · have first : Works.Follows y w v := .of_same (by rw [hctx]; simp [e]) fun a ⟨d, hd, ho⟩ => ⟨d, hdem ▸ hd, ho⟩
    exact (first.trans (entered.follows e)).trans (settled.follows y)

/-- The beginning of a plan at the Plan Executor (R20, R27): the zone stands at step 1 of its plan in use, the Timebase and the
test's zone stand, and every other zone has followed. -/
theorem Works.begin_spec (cls : ExecClass) (b : Option BlockId) :
    let v := w.begin m order z cls b
    (∃ c, v.ctx z = some c ∧ Ctx.Fresh (m.choosePlan b) cls c) ∧ v.plant.now = w.plant.now
      ∧ v.ts.test.map Test.zone = w.ts.test.map Test.zone ∧ ∀ y, y ≠ z → Works.Follows y w v := by
  unfold Works.begin
  dsimp only
  refine Works.enterFirst_spec m order z w _ ?c ?hf ?hctx ?hnow ?hts ?hdem
  case hctx => split <;> rfl
  case hf => exact ⟨rfl, rfl, rfl, rfl, by simp⟩
  all_goals split <;> rfl

end

end Sys2Proof.Machine
end


section
/-!
SUPPORT. The Incident Controller's own tables, apart from what they make the other blocks do: ranks and their renumbering (R5),
the fire order and the locked-out list (R4, R6), admission, re-evaluation and departure (R7, R11, R14, R16, R17, R19).
-/

namespace Sys2Proof.Machine

/-! ### One zone's record -/

section
variable (ic : Incident) (z y : ZoneId) (g : Zone → Zone)

@[simp] theorem Incident.modZone_fireOrder : (ic.modZone z g).fireOrder = ic.fireOrder := rfl
@[simp] theorem Incident.modZone_lockedOut : (ic.modZone z g).lockedOut = ic.lockedOut := rfl
@[simp] theorem Incident.modZone_rank : (ic.modZone z g).rank = ic.rank := rfl
@[simp] theorem Incident.modZone_cfg : (ic.modZone z g).cfg = ic.cfg := rfl

@[simp] theorem Incident.modZone_zone_same : (ic.modZone z g).zone z = g (ic.zone z) := by
  simp [Incident.modZone, Incident.zone]

@[simp] theorem Incident.modZone_zone_other (h : y ≠ z) : (ic.modZone z g).zone y = ic.zone y := by
  simp [Incident.modZone, Incident.zone, h]

@[simp] theorem Incident.place_zone : (ic.place z).zone = ic.zone := rfl

theorem Incident.mem_place : y ∈ (ic.place z).fireOrder ↔ y = z ∨ y ∈ ic.fireOrder := by
  simp only [Incident.place, mem_insertByKey, List.mem_filter, bne_iff_ne]
  by_cases h : y = z <;> simp [h]

theorem Incident.place_nodup (h : ic.fireOrder.Nodup) : (ic.place z).fireOrder.Nodup := by
  unfold Incident.place
  dsimp only
  rw [(insertByKey_perm _ z _).nodup_iff, List.nodup_cons]
  exact ⟨by simp, h.filter _⟩

/-- A zone whose key is above all others is placed at the end. -/
theorem Incident.place_eq_append (h : ∀ y ∈ ic.fireOrder, y ≠ z → ic.orderKey y ≤ ic.orderKey z) :
    (ic.place z).fireOrder = ic.fireOrder.filter (· != z) ++ [z] := by
  refine insertByKey_eq_append _ fun y hy => ?_
  rw [List.mem_filter, bne_iff_ne] at hy
  exact h y hy.1 hy.2

end

/-! ### Ranks (R5) -/

section
variable (ic : Incident) (n : Nat) (l : List ZoneId) (y z : ZoneId)

@[simp] theorem Incident.rankFrom_fireOrder : (ic.rankFrom n l).fireOrder = ic.fireOrder := by
  induction l generalizing ic n with
  | nil => rfl
  | cons z l ih => exact ih ..

@[simp] theorem Incident.rankFrom_lockedOut : (ic.rankFrom n l).lockedOut = ic.lockedOut := by
  induction l generalizing ic n with
  | nil => rfl
  | cons z l ih => exact ih ..

@[simp] theorem Incident.rankFrom_cfg : (ic.rankFrom n l).cfg = ic.cfg := by
  induction l generalizing ic n with
  | nil => rfl
  | cons z l ih => exact ih ..

theorem Incident.rankFrom_zone_of_not_mem (h : y ∉ l) : (ic.rankFrom n l).zone y = ic.zone y := by
  induction l generalizing ic n with
  | nil => rfl
  | cons z l ih =>
    rw [List.mem_cons, not_or] at h
    rw [Incident.rankFrom, ih _ _ h.2, Incident.modZone_zone_other _ _ _ _ h.1]

/-- The zones of a list without repetitions take ranks by their places in it. -/
theorem Incident.rankFrom_zone_of_mem (hl : l.Nodup) (h : y ∈ l) :
    (ic.rankFrom n l).zone y = { ic.zone y with rank := some (n + l.idxOf y) } := by
  induction l generalizing ic n with
  | nil => simp at h
  | cons z l ih =>
    obtain ⟨hz, hl⟩ := List.nodup_cons.mp hl
    rw [Incident.rankFrom]
    by_cases e : y = z
    · subst e
      rw [Incident.rankFrom_zone_of_not_mem _ _ _ _ hz, Incident.modZone_zone_same, List.idxOf_cons_self, Nat.add_zero]
    · rw [ih _ _ hl ((List.mem_cons.mp h).resolve_left e), Incident.modZone_zone_other _ _ _ _ e,
        List.idxOf_cons_ne _ (Ne.symm e)]
      simp only [Nat.succ_eq_add_one, Nat.add_assoc, Nat.add_comm 1]

@[simp] theorem Incident.nextRank_fireOrder : ic.nextRank.fireOrder = ic.fireOrder := by
  unfold Incident.nextRank; dsimp only; split <;> simp [Incident.renumber]

@[simp] theorem Incident.nextRank_lockedOut : ic.nextRank.lockedOut = ic.lockedOut := by
  unfold Incident.nextRank; dsimp only; split <;> simp [Incident.renumber]

@[simp] theorem Incident.nextRank_cfg : ic.nextRank.cfg = ic.cfg := by
  unfold Incident.nextRank; dsimp only; split <;> simp [Incident.renumber]

theorem Incident.nextRank_of_ne (h : ic.rank ≠ Config.max32) : ic.nextRank = { ic with rank := ic.rank + 1 } := by
  simp [Incident.nextRank, h]

theorem Incident.nextRank_of_eq (h : ic.rank = Config.max32) :
    ic.nextRank = { ic.rankFrom 1 (sortByKey ic.rankOf ic.fireOrder) with rank := ic.fireOrder.length + 1 } := by
  simp [Incident.nextRank, h, Incident.renumber]

/-- A renumbered zone takes its place in the ascending order of the ranks (R5). -/
theorem Incident.nextRank_rankOf_of_eq (h : ic.rank = Config.max32) (ho : ic.fireOrder.Nodup) (hy : y ∈ ic.fireOrder) :
    ic.nextRank.zone y = { ic.zone y with rank := some (1 + (sortByKey ic.rankOf ic.fireOrder).idxOf y) } := by
  rw [Incident.nextRank_of_eq ic h]
  exact Incident.rankFrom_zone_of_mem _ _ _ _ ((sortByKey_perm _ _).nodup_iff.mpr ho) ((mem_sortByKey _).mpr hy)

/-- The giving of a rank leaves a zone outside the fire order alone. -/
theorem Incident.nextRank_zone_of_not_mem (h : y ∉ ic.fireOrder) : ic.nextRank.zone y = ic.zone y := by
  by_cases e : ic.rank = Config.max32
  · rw [Incident.nextRank_of_eq ic e]
    exact Incident.rankFrom_zone_of_not_mem _ _ _ _ (by simpa using h)
  · rw [Incident.nextRank_of_ne ic e]; rfl

/-- A zone of smaller key stands ahead in a sorted list. -/
theorem idxOf_lt_of_key_lt {α : Type} [DecidableEq α] {key : α → Nat} {l : List α}
    (hl : l.Pairwise fun a b => key a ≤ key b) {a b : α} (ha : a ∈ l) (hb : b ∈ l) (h : key a < key b) :
    l.idxOf a < l.idxOf b := by
  by_contra hle
  have hai := List.idxOf_lt_length_of_mem ha
  have hbi := List.idxOf_lt_length_of_mem hb
  have ea : l[l.idxOf a] = a := List.getElem_idxOf hai
  have eb : l[l.idxOf b] = b := List.getElem_idxOf hbi
  obtain e | lt := Nat.eq_or_lt_of_le (Nat.not_lt.mp hle)
  · have : a = b := by rw [← ea, ← eb]; simp only [e]
    rw [this] at h
    exact lt_irrefl _ h
  · have := List.pairwise_iff_getElem.mp hl _ _ hbi hai lt
    rw [ea, eb] at this
    omega

/-- The fire order holds no zone twice, the rank counter stands within its limit and at or above every rank held. -/
structure Incident.Ranked (ic : Incident) : Prop where
  once : ic.fireOrder.Nodup
  counter : ic.rank ≤ Config.max32
  given : ∀ z ∈ ic.fireOrder, ic.rankOf z ≤ ic.rank

theorem zones_length_le {l : List ZoneId} (h : l.Nodup) : l.length ≤ 48 := by
  simpa using h.length_le_card

/-- The rank given is larger than every rank held (R5). -/
theorem Incident.Ranked.rankOf_lt_nextRank {ic : Incident} (h : ic.Ranked) (z : ZoneId) (hz : z ∈ ic.fireOrder) :
    ic.nextRank.rankOf z < ic.nextRank.rank := by
  by_cases e : ic.rank = Config.max32
  · have len := List.idxOf_lt_length_of_mem ((mem_sortByKey ic.rankOf).mpr hz)
    rw [(sortByKey_perm _ _).length_eq] at len
    have counter : ic.nextRank.rank = ic.fireOrder.length + 1 := by rw [ic.nextRank_of_eq e]
    rw [Incident.rankOf, ic.nextRank_rankOf_of_eq z e h.once hz, counter, Option.getD_some]
    omega
  · rw [ic.nextRank_of_ne e]
    exact Nat.lt_succ_of_le (h.given z hz)

theorem Incident.Ranked.nextRank_rank_le {ic : Incident} (h : ic.Ranked) : ic.nextRank.rank ≤ Config.max32 := by
  by_cases e : ic.rank = Config.max32
  · have := zones_length_le h.once
    rw [ic.nextRank_of_eq e]
    simp only [Config.max32]
    omega
  · have := h.counter
    rw [ic.nextRank_of_ne e]
    dsimp only
    omega

/-- The giving of a rank keeps the relative order of the ranks held (R5). -/
theorem Incident.Ranked.nextRank_mono {ic : Incident} (h : ic.Ranked) (y z : ZoneId) (hy : y ∈ ic.fireOrder)
    (hz : z ∈ ic.fireOrder) (lt : ic.rankOf y < ic.rankOf z) : ic.nextRank.rankOf y < ic.nextRank.rankOf z := by
  by_cases e : ic.rank = Config.max32
  · have := idxOf_lt_of_key_lt (sortByKey_pairwise ic.rankOf ic.fireOrder) ((mem_sortByKey _).mpr hy)
      ((mem_sortByKey _).mpr hz) lt
    simp only [Incident.rankOf, ic.nextRank_rankOf_of_eq _ e h.once hy, ic.nextRank_rankOf_of_eq _ e h.once hz,
      Option.getD_some]
    omega
  · rw [ic.nextRank_of_ne e]
    exact lt

theorem Incident.Ranked.nextRank {ic : Incident} (h : ic.Ranked) : ic.nextRank.Ranked :=
  ⟨by simpa using h.once, h.nextRank_rank_le, fun z hz => (h.rankOf_lt_nextRank z (by simpa using hz)).le⟩

/-! ### What a change leaves of a zone it is not about -/

/-- From `ic` to `jc` zone `y` keeps its configuration, its place in or out of both lists, and its record but for a
renumbering, which reaches the zones of the fire order alone (R5). -/
structure Incident.Spares (y : ZoneId) (ic jc : Incident) : Prop where
  cfg : jc.cfg = ic.cfg
  order : y ∈ jc.fireOrder ↔ y ∈ ic.fireOrder
  locked : y ∈ jc.lockedOut ↔ y ∈ ic.lockedOut
  renumbered : ∃ r, jc.zone y = { ic.zone y with rank := r }
  unranked : y ∉ ic.fireOrder → jc.zone y = ic.zone y

theorem Incident.Spares.refl (y : ZoneId) (ic : Incident) : Incident.Spares y ic ic :=
  ⟨rfl, .rfl, .rfl, ⟨_, rfl⟩, fun _ => rfl⟩

theorem Incident.Spares.trans {y : ZoneId} {ic jc kc : Incident} (h : Incident.Spares y ic jc)
    (i : Incident.Spares y jc kc) : Incident.Spares y ic kc where
  cfg := i.cfg.trans h.cfg
  order := i.order.trans h.order
  locked := i.locked.trans h.locked
  renumbered := by
    obtain ⟨r, hr⟩ := h.renumbered
    obtain ⟨q, hq⟩ := i.renumbered
    exact ⟨q, by rw [hq, hr]⟩
  unranked e := (i.unranked fun k => e (h.order.mp k)).trans (h.unranked e)

/-- A change that leaves the zone's record as it is spares it. -/
theorem Incident.Spares.of_same {y : ZoneId} {ic jc : Incident} (hc : jc.cfg = ic.cfg)
    (ho : y ∈ jc.fireOrder ↔ y ∈ ic.fireOrder) (hl : y ∈ jc.lockedOut ↔ y ∈ ic.lockedOut) (hz : jc.zone y = ic.zone y) :
    Incident.Spares y ic jc :=
  ⟨hc, ho, hl, ⟨_, hz⟩, fun _ => hz⟩

theorem Incident.Spares.state {y : ZoneId} {ic jc : Incident} (h : Incident.Spares y ic jc) :
    (jc.zone y).state = (ic.zone y).state := by
  obtain ⟨r, hr⟩ := h.renumbered
  rw [hr]

theorem Incident.Spares.config {y : ZoneId} {ic jc : Incident} (h : Incident.Spares y ic jc) (z : ZoneId) :
    jc.config z = ic.config z := by
  unfold Incident.config
  rw [h.cfg]

theorem Incident.nextRank_spares : Incident.Spares y ic ic.nextRank where
  cfg := ic.nextRank_cfg
  order := by simp
  locked := by simp
  renumbered := by
    by_cases hy : y ∈ ic.fireOrder
    · by_cases e : ic.rank = Config.max32
      · unfold Incident.nextRank Incident.renumber
        simp only [e, if_true]
        generalize sortByKey ic.rankOf ic.fireOrder = l
        change ∃ r, (ic.rankFrom 1 l).zone y = _
        generalize 1 = n
        have chain (jc : Incident) (h : ∃ r, jc.zone y = { ic.zone y with rank := r }) :
            ∃ r, (jc.rankFrom n l).zone y = { ic.zone y with rank := r } := by
          induction l generalizing jc n with
          | nil => exact h
          | cons a l ih =>
            refine ih _ _ ?_
            by_cases ha : y = a
            · obtain ⟨r, hr⟩ := h
              exact ⟨some n, by rw [← ha, Incident.modZone_zone_same, hr]⟩
            · rwa [Incident.modZone_zone_other _ _ _ _ ha]
        exact chain ic ⟨_, rfl⟩
      · rw [ic.nextRank_of_ne e]
        exact ⟨_, rfl⟩
    · rw [ic.nextRank_zone_of_not_mem y hy]
      exact ⟨_, rfl⟩
  unranked := ic.nextRank_zone_of_not_mem y

end

/-! ### Admission and re-evaluation (R7, R17) -/

/-- The zone table and lists after zone `z` has entered the fire order with origin `o` and the next rank. -/
def Incident.enlist (z : ZoneId) (o : Origin) (ic : Incident) : Incident :=
  (ic.nextRank.modZone z fun r =>
    { r with state := .active, origin := some o, rank := some ic.nextRank.rank, purge := none }).place z

/-- The same, the zone leaving the locked-out list (R7, R13, R17). -/
def Incident.enroll (z : ZoneId) (o : Origin) (ic : Incident) : Incident :=
  { ic.enlist z o with lockedOut := (ic.enlist z o).lockedOut.filter (· != z) }

/-- The admission rule applied to a zone of the locked-out list (R17). -/
def Incident.readmit (ic : Incident) (z : ZoneId) : Incident :=
  if ic.fireOrder.isEmpty || ic.compatible z then ic.enroll z .alarm else ic

/-- Re-evaluation (R17). -/
def Incident.reEvaluate (ic : Incident) : Incident := ic.lockedOut.foldl Incident.readmit ic

/-- What follows a change of the fire order from the head `head` (R16, R19). -/
def Incident.afterOrder (head : Option ZoneId) (ic : Incident) : Incident :=
  if ic.fireOrder.isEmpty then Incident.reEvaluate { ic with rank := 0 }
  else if ic.lead = head then ic
  else ic.reEvaluate

/-- Zone `z` in state `st` outside both lists (R11, R14). -/
def Incident.remove (z : ZoneId) (st : ZoneState) (ic : Incident) : Incident :=
  { ic.modZone z fun r => { r with state := st, origin := none, rank := none, purge := none } with
    fireOrder := ic.fireOrder.filter (· != z)
    lockedOut := ic.lockedOut.filter (· != z) }

/-- The departure of zone `z` with what follows it (R11, R14, R16, R19). -/
def Incident.leave (z : ZoneId) (st : ZoneState) (ic : Incident) : Incident :=
  if ic.fireOrder.contains z then (ic.remove z st).afterOrder ic.lead else ic.remove z st

/-- Zone `z` at the tail of the locked-out list (R7 case 3). -/
def Incident.lockOut (z : ZoneId) (ic : Incident) : Incident :=
  { ic.modZone z fun r => { r with state := .lockedOut } with lockedOut := ic.lockedOut.filter (· != z) ++ [z] }

section
variable (ic : Incident) (y z : ZoneId) (o : Origin) (st : ZoneState) (head : Option ZoneId)

@[simp] theorem Incident.enlist_lockedOut : (ic.enlist z o).lockedOut = ic.lockedOut := by simp [Incident.enlist]
@[simp] theorem Incident.enlist_cfg : (ic.enlist z o).cfg = ic.cfg := by simp [Incident.enlist]
@[simp] theorem Incident.enlist_rank : (ic.enlist z o).rank = ic.nextRank.rank := rfl

theorem Incident.mem_enlist : y ∈ (ic.enlist z o).fireOrder ↔ y = z ∨ y ∈ ic.fireOrder := by
  simp [Incident.enlist, Incident.mem_place]

@[simp] theorem Incident.enlist_zone_same :
    (ic.enlist z o).zone z =
      { ic.nextRank.zone z with state := .active, origin := some o, rank := some ic.nextRank.rank, purge := none } := by
  simp [Incident.enlist]

theorem Incident.enlist_zone_other (h : y ≠ z) : (ic.enlist z o).zone y = ic.nextRank.zone y := by
  simp [Incident.enlist, h]

theorem Incident.enlist_spares (h : y ≠ z) : Incident.Spares y ic (ic.enlist z o) :=
  (ic.nextRank_spares y).trans (.of_same (by simp) (by simp [Incident.mem_enlist, h]) (by simp)
    (ic.enlist_zone_other y z o h))

/-- Outside the locked-out list the two are one. -/
theorem Incident.enroll_eq_enlist (h : z ∉ ic.lockedOut) : ic.enroll z o = ic.enlist z o := by
  have : (ic.enlist z o).lockedOut.filter (· != z) = (ic.enlist z o).lockedOut := by
    rw [List.filter_eq_self]
    intro a ha
    rw [Incident.enlist_lockedOut] at ha
    simpa using fun e : a = z => h (e ▸ ha)
  simp only [Incident.enroll, this]

@[simp] theorem Incident.enroll_lockedOut : (ic.enroll z o).lockedOut = ic.lockedOut.filter (· != z) := by
  simp [Incident.enroll]

@[simp] theorem Incident.enroll_fireOrder : (ic.enroll z o).fireOrder = (ic.enlist z o).fireOrder := rfl
@[simp] theorem Incident.enroll_zone : (ic.enroll z o).zone = (ic.enlist z o).zone := rfl
@[simp] theorem Incident.enroll_rank : (ic.enroll z o).rank = ic.nextRank.rank := rfl
@[simp] theorem Incident.enroll_cfg : (ic.enroll z o).cfg = ic.cfg := ic.enlist_cfg z o

theorem Incident.enroll_fireOrder_ne_nil : (ic.enroll z o).fireOrder ≠ [] :=
  List.ne_nil_of_mem ((ic.mem_enlist z z o).mpr (.inl rfl))

theorem Incident.enroll_spares (h : y ≠ z) : Incident.Spares y ic (ic.enroll z o) :=
  (ic.enlist_spares y z o h).trans (.of_same rfl .rfl (by simp [h]) rfl)

theorem Incident.readmit_cases :
    (ic.fireOrder.isEmpty || ic.compatible z) = true ∧ ic.readmit z = ic.enroll z .alarm
      ∨ (ic.fireOrder.isEmpty || ic.compatible z) = false ∧ ic.readmit z = ic := by
  unfold Incident.readmit
  cases ic.fireOrder.isEmpty || ic.compatible z <;> simp

theorem Incident.readmit_spares (h : y ≠ z) : Incident.Spares y ic (ic.readmit z) := by
  obtain ⟨-, e⟩ | ⟨-, e⟩ := ic.readmit_cases z <;> rw [e]
  · exact ic.enroll_spares y z .alarm h
  · exact .refl y ic

theorem Incident.readmits_spare (l : List ZoneId) (h : y ∉ l) : Incident.Spares y ic (l.foldl Incident.readmit ic) := by
  induction l generalizing ic with
  | nil => exact .refl y ic
  | cons z l ih =>
    rw [List.mem_cons, not_or] at h
    exact (ic.readmit_spares y z h.1).trans (ih _ h.2)

theorem Incident.reEvaluate_spares (h : y ∉ ic.lockedOut) : Incident.Spares y ic ic.reEvaluate :=
  ic.readmits_spare y _ h

theorem Incident.afterOrder_spares (h : y ∉ ic.lockedOut) : Incident.Spares y ic (ic.afterOrder head) := by
  unfold Incident.afterOrder
  split
  · have ended : Incident.Spares y ic { ic with rank := 0 } := .of_same rfl .rfl .rfl rfl
    exact ended.trans (Incident.reEvaluate_spares _ y h)
  · split
    · exact .refl y ic
    · exact ic.reEvaluate_spares y h

@[simp] theorem Incident.remove_zone_same :
    (ic.remove z st).zone z = { ic.zone z with state := st, origin := none, rank := none, purge := none } :=
  ic.modZone_zone_same z fun r => { r with state := st, origin := none, rank := none, purge := none }

theorem Incident.remove_zone_other (h : y ≠ z) : (ic.remove z st).zone y = ic.zone y :=
  ic.modZone_zone_other z y (fun r => { r with state := st, origin := none, rank := none, purge := none }) h

theorem Incident.remove_spares (h : y ≠ z) : Incident.Spares y ic (ic.remove z st) :=
  .of_same rfl (by simp [Incident.remove, h]) (by simp [Incident.remove, h]) (ic.remove_zone_other y z st h)

theorem Incident.not_mem_remove : z ∉ (ic.remove z st).fireOrder ∧ z ∉ (ic.remove z st).lockedOut := by
  simp [Incident.remove]

theorem Incident.leave_cases :
    z ∈ ic.fireOrder ∧ ic.leave z st = (ic.remove z st).afterOrder ic.lead
      ∨ z ∉ ic.fireOrder ∧ ic.leave z st = ic.remove z st := by
  by_cases h : z ∈ ic.fireOrder
  · exact .inl ⟨h, by simp [Incident.leave, h]⟩
  · exact .inr ⟨h, by simp [Incident.leave, h]⟩

/-- A zone that has left is spared by what follows. -/
theorem Incident.leave_spares_left : Incident.Spares z (ic.remove z st) (ic.leave z st) := by
  obtain ⟨-, e⟩ | ⟨-, e⟩ := ic.leave_cases z st <;> rw [e]
  · exact Incident.afterOrder_spares _ z _ (ic.not_mem_remove z st).2
  · exact .refl z _

/-! ### Room under the rank limit (R5) -/

/-- Where the counter has room for every admission no rank is renumbered. -/
theorem Incident.readmits_zone (l : List ZoneId) (h : ic.rank + l.length ≤ Config.max32) (hy : y ∉ l) :
    (l.foldl Incident.readmit ic).zone y = ic.zone y := by
  induction l generalizing ic with
  | nil => rfl
  | cons z l ih =>
    rw [List.mem_cons, not_or] at hy
    rw [List.length_cons] at h
    have next := ic.nextRank_of_ne (by omega)
    obtain ⟨-, e⟩ | ⟨-, e⟩ := ic.readmit_cases z <;> rw [List.foldl_cons, e]
    · rw [ih _ (by rw [Incident.enroll_rank, next]; dsimp only; omega) hy.2, Incident.enroll_zone,
        Incident.enlist_zone_other _ _ _ _ hy.1, next]
      rfl
    · exact ih _ (by omega) hy.2

/-- The same for all that follows a change of the fire order. -/
theorem Incident.afterOrder_zone (hl : ic.lockedOut.Nodup) (h : ic.rank + 48 ≤ Config.max32) (hy : y ∉ ic.lockedOut) :
    (ic.afterOrder head).zone y = ic.zone y := by
  have := zones_length_le hl
  unfold Incident.afterOrder
  split
  · exact Incident.readmits_zone { ic with rank := 0 } y ic.lockedOut (by dsimp only; omega) hy
  · split
    · rfl
    · exact ic.readmits_zone y _ (by omega) hy

end

/-! ### Where a zone admitted with origin ALARM stands, and the lead zone -/

section
variable {ic : Incident}

theorem Incident.orderKey_le (ic : Incident) (y : ZoneId) : ic.orderKey y ≤ Config.max32 + 1 + ic.rankOf y := by
  unfold Incident.orderKey
  split <;> omega

/-- A zone that enters with origin ALARM stands last, its rank being the largest (R4, R5). -/
theorem Incident.Ranked.enlist_fireOrder (h : ic.Ranked) (z : ZoneId) :
    (ic.enlist z .alarm).fireOrder = ic.fireOrder.filter (· != z) ++ [z] := by
  refine (Incident.place_eq_append _ z fun y hy hne => ?_).trans (by simp)
  have lt := h.rankOf_lt_nextRank y (by simpa using hy)
  refine (Incident.orderKey_le _ y).trans ?_
  simp only [Incident.orderKey, Incident.rankOf, Incident.modZone_zone_same, Incident.modZone_zone_other _ _ _ _ hne,
    Option.getD_some] at lt ⊢
  simp only [Option.some.injEq, reduceCtorEq, if_false]
  omega

theorem Incident.Ranked.enlist (h : ic.Ranked) (z : ZoneId) (o : Origin) : (ic.enlist z o).Ranked where
  once := Incident.place_nodup _ _ (by simpa using h.once)
  counter := h.nextRank_rank_le
  given y hy := by
    rw [Incident.enlist_rank]
    by_cases e : y = z
    · subst e
      simp [Incident.rankOf]
    · have hy := ((ic.mem_enlist y z o).mp hy).resolve_left e
      rw [Incident.rankOf, ic.enlist_zone_other y z o e]
      exact (h.rankOf_lt_nextRank y hy).le

theorem Incident.Ranked.enroll (h : ic.Ranked) (z : ZoneId) (o : Origin) : (ic.enroll z o).Ranked :=
  let k := h.enlist z o
  ⟨k.once, k.counter, k.given⟩

theorem Incident.compatible_congr {jc : Incident} (hl : jc.lead = ic.lead) (hc : jc.cfg = ic.cfg) :
    jc.compatible = ic.compatible := by
  funext z
  simp only [Incident.compatible, Incident.config, hl, hc]

/-- A walk of zones outside a non-empty fire order appends the compatible ones to it, takes those from the locked-out list, and
leaves the lead zone (R7, R17). -/
theorem Incident.Ranked.readmits (h : ic.Ranked) (hne : ic.fireOrder ≠ []) (l : List ZoneId) (hl : l.Nodup)
    (hd : ∀ z ∈ l, z ∉ ic.fireOrder) :
    let jc := l.foldl Incident.readmit ic
    jc.Ranked ∧ jc.fireOrder = ic.fireOrder ++ l.filter ic.compatible ∧ jc.cfg = ic.cfg
      ∧ jc.lockedOut = ic.lockedOut.filter fun y => !(l.contains y && ic.compatible y) := by
  induction l generalizing ic with
  | nil => exact ⟨h, by simp, rfl, by simp⟩
  | cons z l ih =>
    obtain ⟨hz, hl⟩ := List.nodup_cons.mp hl
    have hzo : z ∉ ic.fireOrder := hd z List.mem_cons_self
    have hlo : ∀ y ∈ l, y ∉ ic.fireOrder := fun y hy => hd y (List.mem_cons_of_mem _ hy)
    have empty : ic.fireOrder.isEmpty = false := by simpa using hne
    dsimp only
    obtain ⟨c, e⟩ | ⟨c, e⟩ := ic.readmit_cases z <;> rw [List.foldl_cons, e] <;>
      rw [empty, Bool.false_or] at c
    · have order : (ic.enroll z .alarm).fireOrder = ic.fireOrder ++ [z] := by
        rw [Incident.enroll_fireOrder, h.enlist_fireOrder z, List.filter_eq_self.mpr]
        exact fun a ha => by simpa using fun e : a = z => hzo (e ▸ ha)
      have comp : (ic.enroll z .alarm).compatible = ic.compatible := by
        refine Incident.compatible_congr ?_ (ic.enroll_cfg z .alarm)
        rw [Incident.lead, order, List.head?_append_of_ne_nil _ hne, Incident.lead]
      have later := ih (h.enroll z .alarm) (by rw [order]; simp) hl fun y hy => by
        rw [order, List.mem_append, List.mem_singleton, not_or]
        exact ⟨hlo y hy, fun e => hz (e ▸ hy)⟩
      rw [comp] at later
      obtain ⟨hr, ho, hc, hk⟩ := later
      refine ⟨hr, ?_, hc.trans (ic.enroll_cfg z .alarm), ?_⟩
      · rw [ho, order, List.filter_cons, if_pos c, List.append_assoc, List.singleton_append]
      · rw [hk, Incident.enroll_lockedOut, List.filter_filter]
        refine List.filter_congr fun y _ => ?_
        by_cases hyz : y = z
        · subst hyz; simp [c]
        · simp [hyz]
    · obtain ⟨hr, ho, hc, hk⟩ := ih h hne hl hlo
      refine ⟨hr, ?_, hc, ?_⟩
      · rw [ho, List.filter_cons, if_neg (by simp [c])]
      · rw [hk]
        refine List.filter_congr fun y _ => ?_
        by_cases hyz : y = z
        · subst hyz; simp [c, hz]
        · simp [hyz]

/-- No zone of the locked-out list is compatible with the lead zone. -/
def Incident.Judged (ic : Incident) : Prop := ∀ z ∈ ic.lockedOut, ic.compatible z = false

theorem Incident.Ranked.reEvaluate_of_ne_nil (h : ic.Ranked) (hne : ic.fireOrder ≠ []) (hl : ic.lockedOut.Nodup)
    (hd : ∀ z ∈ ic.lockedOut, z ∉ ic.fireOrder) :
    ic.reEvaluate.Judged ∧ ic.reEvaluate.lockedOut.Sublist ic.lockedOut ∧ ic.reEvaluate.lead = ic.lead := by
  obtain ⟨-, ho, hc, hk⟩ := h.readmits hne _ hl hd
  have lead : ic.reEvaluate.lead = ic.lead := by
    rw [Incident.lead, Incident.reEvaluate, ho, List.head?_append_of_ne_nil _ hne, Incident.lead]
  refine ⟨fun z hz => ?_, ?_, lead⟩
  · rw [Incident.compatible_congr lead hc]
    rw [Incident.reEvaluate, hk, List.mem_filter] at hz
    simpa [hz.1] using hz.2
  · rw [Incident.reEvaluate, hk]
    exact List.filter_sublist

/-- With no zone in the fire order the first zone of the locked-out list leads, and the others are judged by it (R19). -/
theorem Incident.reEvaluate_of_nil (ho : ic.fireOrder = []) {y : ZoneId} {l : List ZoneId} (e : ic.lockedOut = y :: l)
    (hl : ic.lockedOut.Nodup) :
    ic.reEvaluate = (ic.enroll y .alarm).reEvaluate ∧ (ic.enroll y .alarm).lockedOut = l
      ∧ (ic.enroll y .alarm).fireOrder = [y] := by
  have out : (ic.enroll y .alarm).lockedOut = l := by
    rw [e] at hl
    rw [Incident.enroll_lockedOut, e, List.filter_cons, if_neg (by simp), List.filter_eq_self.mpr]
    exact fun a ha => by simpa using fun k : a = y => (List.nodup_cons.mp hl).1 (k ▸ ha)
  refine ⟨?_, out, ?_⟩
  · rw [Incident.reEvaluate, e, List.foldl_cons, Incident.reEvaluate, out, Incident.readmit, ho]
    rfl
  · simp [Incident.enlist, Incident.place, ho, insertByKey]

theorem Incident.Ranked.reEvaluate_judged (h : ic.Ranked) (hl : ic.lockedOut.Nodup)
    (hd : ∀ z ∈ ic.lockedOut, z ∉ ic.fireOrder) :
    ic.reEvaluate.Judged ∧ ic.reEvaluate.lockedOut.Sublist ic.lockedOut
      ∧ (ic.fireOrder ≠ [] → ic.reEvaluate.lead = ic.lead) := by
  by_cases ho : ic.fireOrder = []
  · cases e : ic.lockedOut with
    | nil =>
      have same : ic.reEvaluate = ic := by rw [Incident.reEvaluate, e, List.foldl_nil]
      rw [same]
      exact ⟨fun z hz => by rw [e] at hz; simp at hz, by rw [e], fun k => absurd ho k⟩
    | cons y l =>
      obtain ⟨same, out, order⟩ := Incident.reEvaluate_of_nil ho e hl
      rw [e] at hl
      obtain ⟨hy, hl⟩ := List.nodup_cons.mp hl
      obtain ⟨hj, hs, -⟩ := (h.enroll y .alarm).reEvaluate_of_ne_nil (by rw [order]; simp) (by rwa [out])
        (by rw [out, order]; exact fun z hz => by simpa using fun e : z = y => hy (e ▸ hz))
      rw [out, ← same] at hs
      rw [← same] at hj
      exact ⟨hj, hs.trans (List.sublist_cons_self y l), fun k => absurd ho k⟩
  · obtain ⟨hj, hs, hlead⟩ := h.reEvaluate_of_ne_nil ho hl hd
    exact ⟨hj, hs, fun _ => hlead⟩

end

end Sys2Proof.Machine
end


section
/-!
SUPPORT. The agreement of the zone table with the fire order and the locked-out list (R2, R4, R6), the order of the fire order
(R4, R5), and their keeping by every change of the Incident Controller.
-/

namespace Sys2Proof.Machine

/-! ### Agreement of the zone table and the lists -/

/-- The record of zone `z` agrees with its places in the lists (R2, R4, R6), and its rank with the counter (R5). -/
structure Incident.SoundAt (ic : Incident) (z : ZoneId) : Prop where
  order : z ∈ ic.fireOrder ↔ (ic.zone z).state.inFire = true
  locked : z ∈ ic.lockedOut ↔ (ic.zone z).state = .lockedOut
  origin : (ic.zone z).origin.isSome = true ↔ z ∈ ic.fireOrder
  rank : (ic.zone z).rank.isSome = true ↔ z ∈ ic.fireOrder
  purge : (ic.zone z).purge.isSome = true ↔ (ic.zone z).state = .restoring
  given : z ∈ ic.fireOrder → ic.rankOf z ≤ ic.rank

/-- The part of `Site.Consistent` that speaks of the Incident Controller alone, but for an emptied fire order. -/
structure Incident.Sound (ic : Incident) : Prop where
  orderOnce : ic.fireOrder.Nodup
  lockedOnce : ic.lockedOut.Nodup
  counter : ic.rank ≤ Config.max32
  each : ∀ z, ic.SoundAt z

/-- An empty fire order leaves no zone locked out (R19). -/
def Incident.Emptied (ic : Incident) : Prop := ic.fireOrder = [] → ic.lockedOut = []

/-- A list of zones in the order of R4, no rank held twice. -/
def Incident.SortedOn (ic : Incident) (l : List ZoneId) : Prop :=
  l.Pairwise (fun y z => ic.orderKey y < ic.orderKey z) ∧ (l.map ic.rankOf).Nodup

/-- A change that keeps the agreement, and with it the order. -/
def Incident.Keeps (ic jc : Incident) : Prop := ic.Sound → jc.Sound ∧ (ic.Sorted → jc.Sorted)

theorem Incident.Keeps.refl (ic : Incident) : ic.Keeps ic := fun h => ⟨h, id⟩

theorem Incident.Keeps.trans {ic jc kc : Incident} (h : ic.Keeps jc) (i : jc.Keeps kc) : ic.Keeps kc := fun s =>
  ⟨(i (h s).1).1, fun o => (i (h s).1).2 ((h s).2 o)⟩

theorem Incident.Sound.ranked {ic : Incident} (h : ic.Sound) : ic.Ranked :=
  ⟨h.orderOnce, h.counter, fun z => (h.each z).given⟩

theorem Incident.Sound.not_locked {ic : Incident} (h : ic.Sound) {z : ZoneId} (hz : z ∈ ic.fireOrder) : z ∉ ic.lockedOut := by
  intro k
  have fire := (h.each z).order.mp hz
  rw [(h.each z).locked.mp k] at fire
  cases fire

/-- A change about one zone keeps the agreement where it holds of that zone afterwards. -/
theorem Incident.Sound.of_change {ic jc : Incident} (h : ic.Sound) (z : ZoneId) (ho : jc.fireOrder.Nodup)
    (hl : jc.lockedOut.Nodup) (hr : jc.rank = ic.rank)
    (other : ∀ y, y ≠ z → (y ∈ jc.fireOrder ↔ y ∈ ic.fireOrder) ∧ (y ∈ jc.lockedOut ↔ y ∈ ic.lockedOut)
      ∧ jc.zone y = ic.zone y)
    (hz : jc.SoundAt z) : jc.Sound := by
  refine ⟨ho, hl, hr ▸ h.counter, fun y => ?_⟩
  by_cases e : y = z
  · exact e ▸ hz
  · obtain ⟨fo, lo, zo⟩ := other y e
    obtain ⟨order, locked, origin, rank, purge, given⟩ := h.each y
    constructor <;> simp only [Incident.rankOf, fo, lo, zo, hr] <;> assumption

/-! ### The order -/

section
variable {ic jc : Incident} {l : List ZoneId}

theorem Incident.SortedOn.filter (h : ic.SortedOn l) (p : ZoneId → Bool) : ic.SortedOn (l.filter p) :=
  ⟨h.1.filter p, h.2.sublist (List.filter_sublist.map _)⟩

/-- Keys compare as origins and ranks do (R4), for ranks within their limit. -/
theorem Incident.orderKey_lt_iff {y z : ZoneId} (hy : ic.rankOf y ≤ Config.max32) (hz : ic.rankOf z ≤ Config.max32) :
    ic.orderKey y < ic.orderKey z ↔
      (((ic.zone y).origin = some .ff ↔ (ic.zone z).origin = some .ff) ∧ ic.rankOf y < ic.rankOf z)
        ∨ ((ic.zone y).origin = some .ff ∧ (ic.zone z).origin ≠ some .ff) := by
  unfold Incident.orderKey
  by_cases oy : (ic.zone y).origin = some .ff <;> by_cases oz : (ic.zone z).origin = some .ff <;> simp [oy, oz] <;> omega

/-- New ranks in the relative order of the old keep a list in order, where the origins stay. -/
theorem Incident.SortedOn.of_mono (h : ic.SortedOn l) (ho : ∀ y ∈ l, (jc.zone y).origin = (ic.zone y).origin)
    (hi : ∀ y ∈ l, ic.rankOf y ≤ Config.max32) (hj : ∀ y ∈ l, jc.rankOf y ≤ Config.max32)
    (hm : ∀ y ∈ l, ∀ z ∈ l, ic.rankOf y < ic.rankOf z → jc.rankOf y < jc.rankOf z) : jc.SortedOn l := by
  refine ⟨h.1.imp_of_mem fun {y z} hy hz lt => ?_, ?_⟩
  · rw [Incident.orderKey_lt_iff (hi y hy) (hi z hz)] at lt
    rw [Incident.orderKey_lt_iff (hj y hy) (hj z hz), ho y hy, ho z hz]
    obtain ⟨same, lt⟩ | cross := lt
    · exact .inl ⟨same, hm y hy z hz lt⟩
    · exact .inr cross
  · refine List.pairwise_map.mpr ((List.pairwise_map.mp h.2).imp_of_mem fun {y z} hy hz ne => ?_)
    obtain lt | lt := Nat.lt_or_gt_of_ne ne
    · exact (hm y hy z hz lt).ne
    · exact (hm z hz y hy lt).ne'

theorem Incident.SortedOn.congr (h : ic.SortedOn l) (ho : ∀ y ∈ l, (jc.zone y).origin = (ic.zone y).origin)
    (hr : ∀ y ∈ l, jc.rankOf y = ic.rankOf y) : jc.SortedOn l := by
  have key (y : ZoneId) (hy : y ∈ l) : jc.orderKey y = ic.orderKey y := by
    simp only [Incident.orderKey, ho y hy, hr y hy]
  exact ⟨h.1.imp_of_mem fun {y z} hy hz lt => by rwa [key y hy, key z hz],
    by rw [List.map_congr_left hr]; exact h.2⟩

/-- A zone of another rank than all is inserted in order. -/
theorem Incident.SortedOn.insert (h : ic.SortedOn l) (z : ZoneId) (hz : ic.rankOf z ≤ Config.max32)
    (hl : ∀ y ∈ l, ic.rankOf y ≤ Config.max32) (hne : ∀ y ∈ l, ic.rankOf y ≠ ic.rankOf z) :
    ic.SortedOn (insertByKey ic.orderKey z l) := by
  refine ⟨insertByKey_pairwise _ h.1 fun y hy e => ?_, ?_⟩
  · have := hl y hy
    have := hne y hy
    unfold Incident.orderKey at e
    split at e <;> split at e <;> omega
  · rw [((insertByKey_perm ic.orderKey z l).map _).nodup_iff, List.map_cons, List.nodup_cons]
    exact ⟨fun k => by obtain ⟨y, hy, e⟩ := List.mem_map.mp k; exact hne y hy e, h.2⟩

/-- A zone of another rank than all is placed in order (R4). -/
theorem Incident.place_sorted (z : ZoneId) (h : ic.SortedOn (ic.fireOrder.filter (· != z)))
    (hz : ic.rankOf z ≤ Config.max32) (hl : ∀ y ∈ ic.fireOrder, ic.rankOf y ≤ Config.max32)
    (hne : ∀ y ∈ ic.fireOrder, y ≠ z → ic.rankOf y ≠ ic.rankOf z) : (ic.place z).Sorted := by
  refine Incident.SortedOn.insert h z hz (fun y hy => hl y (List.mem_of_mem_filter hy)) fun y hy => ?_
  rw [List.mem_filter, bne_iff_ne] at hy
  exact hne y hy.1 hy.2

end

/-! ### The changes of the Incident Controller -/

section
variable (ic : Incident) (z : ZoneId) (o : Origin) (st : ZoneState) (head : Option ZoneId)

/-- The giving of a rank keeps agreement and order (R5). -/
theorem Incident.nextRank_keeps : ic.Keeps ic.nextRank := by
  intro h
  have ranked := h.ranked
  refine ⟨⟨by simpa using h.orderOnce, by simpa using h.lockedOnce, ranked.nextRank_rank_le, fun y => ?_⟩, fun hs => ?_⟩
  · have spared := ic.nextRank_spares y
    obtain ⟨order, locked, origin, rank, purge, given⟩ := h.each y
    have given' : y ∈ ic.nextRank.fireOrder → ic.nextRank.rankOf y ≤ ic.nextRank.rank := ranked.nextRank.given y
    by_cases hy : y ∈ ic.fireOrder
    · obtain ⟨r, hr⟩ := spared.renumbered
      have some : r.isSome = true := by
        by_cases e : ic.rank = Config.max32
        · have full := congrArg Zone.rank ((ic.nextRank_rankOf_of_eq y e ranked.once hy).symm.trans hr)
          rw [← show _ = r from full]
          rfl
        · have same := congrArg Zone.rank ((congrFun (congrArg Incident.zone (ic.nextRank_of_ne e)) y).symm.trans hr)
          rw [← show _ = r from same]
          exact rank.mpr hy
      constructor <;> simp only [spared.order, spared.locked, hr]
      · exact order
      · exact locked
      · exact origin
      · exact ⟨fun _ => hy, fun _ => some⟩
      · exact purge
      · exact fun k => given' (spared.order.mpr k)
    · have same := spared.unranked hy
      constructor <;> simp only [spared.order, spared.locked, same]
      · exact order
      · exact locked
      · exact origin
      · exact rank
      · exact purge
      · exact fun k => absurd k hy
  · have sorted : ic.nextRank.SortedOn ic.fireOrder := by
      refine Incident.SortedOn.of_mono (ic := ic) hs (fun y _ => ?_) (fun y hy => (ranked.given y hy).trans h.counter)
        (fun y hy => ?_) fun y hy z hz => ranked.nextRank_mono y z hy hz
      · obtain ⟨r, hr⟩ := (ic.nextRank_spares y).renumbered
        rw [hr]
      · exact (ranked.rankOf_lt_nextRank y hy).le.trans ranked.nextRank_rank_le
    rw [← ic.nextRank_fireOrder] at sorted
    exact sorted

/-- A zone given the counter's rank, larger than every other, enters the fire order in its place (R4, R5). -/
theorem Incident.enlist_sorted (h : ic.Sound) (hs : ic.Sorted) : (ic.enlist z o).Sorted := by
  obtain ⟨sound, sorted⟩ := ic.nextRank_keeps h
  have lt : ∀ y ∈ ic.nextRank.fireOrder, ic.nextRank.rankOf y < ic.nextRank.rank := fun y hy =>
    h.ranked.rankOf_lt_nextRank y (by simpa using hy)
  have rest : ic.nextRank.SortedOn (ic.nextRank.fireOrder.filter (· != z)) := Incident.SortedOn.filter (sorted hs) _
  refine Incident.place_sorted z (rest.congr (fun y hy => ?_) fun y hy => ?_) ?_ (fun y hy => ?_) fun y hy e => ?_
  · have e : y ≠ z := by simpa using (List.mem_filter.mp hy).2
    rw [Incident.modZone_zone_other _ _ _ _ e]
  · have e : y ≠ z := by simpa using (List.mem_filter.mp hy).2
    rw [Incident.rankOf, Incident.modZone_zone_other _ _ _ _ e, Incident.rankOf]
  · simpa [Incident.rankOf] using sound.counter
  · by_cases e : y = z
    · simpa [Incident.rankOf, e] using sound.counter
    · rw [Incident.rankOf, Incident.modZone_zone_other _ _ _ _ e]
      exact (lt y hy).le.trans sound.counter
  · rw [Incident.rankOf, Incident.modZone_zone_other _ _ _ _ e, Incident.rankOf, Incident.modZone_zone_same,
      Option.getD_some]
    exact (lt y hy).ne

/-- Admission to the fire order (R7, R13, R17). -/
theorem Incident.enroll_keeps : ic.Keeps (ic.enroll z o) := by
  intro h
  refine ⟨(ic.nextRank_keeps h).1.of_change z (h.ranked.enroll z o).once ?_ rfl (fun y e => ⟨?_, ?_, ?_⟩) ?_,
    ic.enlist_sorted z o h⟩
  · simpa using h.lockedOnce.filter _
  · simp [Incident.mem_enlist, e]
  · simp [e]
  · exact ic.enlist_zone_other y z o e
  · have mem : z ∈ (ic.enlist z o).fireOrder := (ic.mem_enlist z z o).mpr (.inl rfl)
    constructor <;> simp [mem, Incident.rankOf, ZoneState.inFire]

theorem Incident.enlist_keeps (hz : z ∉ ic.lockedOut) : ic.Keeps (ic.enlist z o) :=
  ic.enroll_eq_enlist z o hz ▸ ic.enroll_keeps z o

/-- A change of one record that moves it neither in nor out of a list, and keeps origin and rank. -/
theorem Incident.modZone_keeps (g : Zone → Zone) (hf : (g (ic.zone z)).state.inFire = (ic.zone z).state.inFire)
    (hl : (g (ic.zone z)).state = .lockedOut ↔ (ic.zone z).state = .lockedOut)
    (ho : (g (ic.zone z)).origin = (ic.zone z).origin) (hr : (g (ic.zone z)).rank = (ic.zone z).rank)
    (hp : ic.SoundAt z → ((g (ic.zone z)).purge.isSome = true ↔ (g (ic.zone z)).state = .restoring)) :
    ic.Keeps (ic.modZone z g) := by
  intro h
  refine ⟨h.of_change z h.orderOnce h.lockedOnce rfl (fun y e => ⟨.rfl, .rfl, ic.modZone_zone_other z y g e⟩) ?_,
    fun hs => ?_⟩
  · obtain ⟨order, locked, origin, rank, -, given⟩ := h.each z
    constructor <;>
      simp only [Incident.modZone_fireOrder, Incident.modZone_lockedOut, Incident.modZone_rank, Incident.modZone_zone_same,
        Incident.rankOf, hf, hl, ho, hr]
    · exact order
    · exact locked
    · exact origin
    · exact rank
    · exact hp (h.each z)
    · exact given
  · refine Incident.SortedOn.congr (ic := ic) hs (fun y _ => ?_) fun y _ => ?_ <;> by_cases e : y = z
    · subst e; simpa using ho
    · simp [e]
    · subst e; simp [Incident.rankOf, hr]
    · simp [Incident.rankOf, e]

/-- A departure from both lists (R11, R14). -/
theorem Incident.remove_keeps (hst : st = .normal ∨ st = .heldOff) : ic.Keeps (ic.remove z st) := by
  intro h
  obtain ⟨noOrder, noLock⟩ := ic.not_mem_remove z st
  refine ⟨h.of_change z (h.orderOnce.filter _) (h.lockedOnce.filter _) rfl (fun y e => ⟨?_, ?_, ?_⟩) ?_, fun hs => ?_⟩
  · exact (ic.remove_spares y z st e).order
  · exact (ic.remove_spares y z st e).locked
  · exact ic.remove_zone_other y z st e
  · constructor <;> simp only [noOrder, noLock, Incident.remove_zone_same] <;> obtain rfl | rfl := hst <;>
      simp [ZoneState.inFire]
  · refine Incident.SortedOn.congr (ic := ic) (Incident.SortedOn.filter hs _) (fun y hy => ?_) fun y hy => ?_ <;>
      have e : y ≠ z := by simpa using (List.mem_filter.mp hy).2
    · rw [ic.remove_zone_other y z st e]
    · rw [Incident.rankOf, ic.remove_zone_other y z st e, Incident.rankOf]

/-- A zone outside the fire order is locked out (R7 case 3). -/
theorem Incident.lockOut_keeps (hz : z ∉ ic.fireOrder) : ic.Keeps (ic.lockOut z) := by
  intro h
  have same : (ic.lockOut z).zone z = { ic.zone z with state := .lockedOut } :=
    ic.modZone_zone_same z fun r => { r with state := .lockedOut }
  have other (y : ZoneId) (e : y ≠ z) : (ic.lockOut z).zone y = ic.zone y :=
    ic.modZone_zone_other z y (fun r => { r with state := .lockedOut }) e
  refine ⟨h.of_change z h.orderOnce ?_ rfl (fun y e => ⟨.rfl, ?_, other y e⟩) ?_, fun hs => ?_⟩
  · exact (h.lockedOnce.filter _).append (List.nodup_singleton z) (by simp [List.disjoint_singleton])
  · simp [Incident.lockOut, e]
  · obtain ⟨order, -, origin, rank, purge, -⟩ := h.each z
    have noFire : (ic.zone z).state.inFire = false := by simpa using fun k => hz (order.mpr k)
    have noOrder : z ∉ (ic.lockOut z).fireOrder := hz
    have tail : z ∈ (ic.lockOut z).lockedOut := by simp [Incident.lockOut]
    have notRestoring : (ic.zone z).state ≠ .restoring := fun k => by rw [k] at noFire; cases noFire
    constructor <;> simp only [same, noOrder, tail, ZoneState.inFire]
    · simp
    · exact ⟨fun k => hz (origin.mp k), False.elim⟩
    · exact ⟨fun k => hz (rank.mp k), False.elim⟩
    · exact ⟨fun k => absurd (purge.mp k) notRestoring, fun k => by cases k⟩
    · exact False.elim
  · refine Incident.SortedOn.congr (ic := ic) hs (fun y hy => ?_) fun y hy => ?_ <;>
      have e : y ≠ z := fun e => hz (e ▸ hy)
    · rw [other y e]
    · rw [Incident.rankOf, other y e, Incident.rankOf]

/-- A zone of the fire order takes another origin and the place that it gives, its rank kept (R4, R15). -/
def Incident.reorigin (z : ZoneId) (o : Origin) (ic : Incident) : Incident :=
  (ic.modZone z fun r => { r with origin := some o }).place z

theorem Incident.reorigin_zone_same : (ic.reorigin z o).zone z = { ic.zone z with origin := some o } := by
  simp [Incident.reorigin]

theorem Incident.reorigin_zone_other (y : ZoneId) (e : y ≠ z) : (ic.reorigin z o).zone y = ic.zone y := by
  simp [Incident.reorigin, e]

theorem Incident.mem_reorigin (y : ZoneId) : y ∈ (ic.reorigin z o).fireOrder ↔ y = z ∨ y ∈ ic.fireOrder := by
  simp [Incident.reorigin, Incident.mem_place]

theorem Incident.reorigin_spares (y : ZoneId) (e : y ≠ z) : Incident.Spares y ic (ic.reorigin z o) :=
  .of_same rfl (by simp [Incident.mem_reorigin, e]) .rfl (ic.reorigin_zone_other z o y e)

theorem Incident.reorigin_keeps (hz : z ∈ ic.fireOrder) : ic.Keeps (ic.reorigin z o) := by
  intro h
  have rankOf (y : ZoneId) : (ic.modZone z fun r => { r with origin := some o }).rankOf y = ic.rankOf y := by
    by_cases e : y = z
    · subst e; simp [Incident.rankOf]
    · simp [Incident.rankOf, e]
  have bound (y : ZoneId) (hy : y ∈ ic.fireOrder) : ic.rankOf y ≤ Config.max32 := ((h.each y).given hy).trans h.counter
  refine ⟨h.of_change z (Incident.place_nodup _ _ h.orderOnce) h.lockedOnce rfl (fun y e => ⟨?_, .rfl, ?_⟩) ?_, fun hs => ?_⟩
  · simp [Incident.mem_reorigin, e]
  · exact ic.reorigin_zone_other z o y e
  · have mem : z ∈ (ic.reorigin z o).fireOrder := (ic.mem_reorigin z o z).mpr (.inl rfl)
    obtain ⟨order, locked, -, rank, purge, given⟩ := h.each z
    constructor <;> simp only [ic.reorigin_zone_same z o, mem, iff_true, Incident.rankOf]
    · simpa using order.mp hz
    · exact locked
    · rfl
    · exact rank.mpr hz
    · exact purge
    · exact fun _ => given hz
  · have rest : ic.SortedOn (ic.fireOrder.filter (· != z)) := Incident.SortedOn.filter hs _
    refine Incident.place_sorted z (rest.congr (fun y hy => ?_) fun y _ => rankOf y) ?_ (fun y hy => ?_) fun y hy e k => ?_
    · have e : y ≠ z := by simpa using (List.mem_filter.mp hy).2
      rw [Incident.modZone_zone_other _ _ _ _ e]
    · rw [rankOf]; exact bound z hz
    · rw [rankOf]; exact bound y hy
    · rw [rankOf, rankOf] at k
      exact e (List.inj_on_of_nodup_map hs.2 hy hz k)

/-- With an empty fire order the counter may begin again (R19). -/
theorem Incident.restart_keeps (ho : ic.fireOrder = []) : ic.Keeps { ic with rank := 0 } := by
  intro h
  refine ⟨⟨h.orderOnce, h.lockedOnce, Nat.zero_le _, fun y => ?_⟩, id⟩
  obtain ⟨order, locked, origin, rank, purge, -⟩ := h.each y
  exact ⟨order, locked, origin, rank, purge, fun k => by rw [ho] at k; cases k⟩

theorem Incident.readmit_keeps : ic.Keeps (ic.readmit z) := by
  obtain ⟨-, e⟩ | ⟨-, e⟩ := ic.readmit_cases z <;> rw [e]
  · exact ic.enroll_keeps z .alarm
  · exact .refl ic

theorem Incident.reEvaluate_keeps : ic.Keeps ic.reEvaluate := by
  unfold Incident.reEvaluate
  generalize ic.lockedOut = l
  induction l generalizing ic with
  | nil => exact .refl ic
  | cons z l ih => exact (ic.readmit_keeps z).trans (ih _)

theorem Incident.afterOrder_keeps : ic.Keeps (ic.afterOrder head) := by
  unfold Incident.afterOrder
  split
  case isTrue h => exact (ic.restart_keeps (List.isEmpty_iff.mp h)).trans (Incident.reEvaluate_keeps _)
  case isFalse =>
    split
    · exact .refl ic
    · exact ic.reEvaluate_keeps

theorem Incident.leave_keeps (hst : st = .normal ∨ st = .heldOff) : ic.Keeps (ic.leave z st) := by
  obtain ⟨-, e⟩ | ⟨-, e⟩ := ic.leave_cases z st <;> rw [e]
  · exact (ic.remove_keeps z st hst).trans (Incident.afterOrder_keeps _ _)
  · exact ic.remove_keeps z st hst

/-! ### No zone locked out without a lead (R19) -/

theorem Incident.readmits_ne_nil (l : List ZoneId) (h : ic.fireOrder ≠ []) : (l.foldl Incident.readmit ic).fireOrder ≠ [] := by
  induction l generalizing ic with
  | nil => exact h
  | cons z l ih =>
    apply ih
    obtain ⟨-, e⟩ | ⟨-, e⟩ := ic.readmit_cases z <;> rw [e]
    · exact ic.enroll_fireOrder_ne_nil z .alarm
    · exact h

theorem Incident.reEvaluate_emptied : ic.reEvaluate.Emptied := by
  intro h
  unfold Incident.reEvaluate at h ⊢
  cases e : ic.lockedOut with
  | nil => exact e
  | cons y l =>
    rw [e, List.foldl_cons] at h
    refine absurd h (Incident.readmits_ne_nil _ l ?_)
    obtain ⟨-, k⟩ | ⟨c, k⟩ := ic.readmit_cases y <;> rw [k]
    · exact ic.enroll_fireOrder_ne_nil y .alarm
    · intro empty
      rw [empty] at c
      cases c

theorem Incident.afterOrder_emptied : (ic.afterOrder head).Emptied := by
  unfold Incident.afterOrder
  split
  · exact Incident.reEvaluate_emptied _
  · split
    · exact fun h => by simp_all
    · exact Incident.reEvaluate_emptied _

theorem Incident.leave_emptied (h : ic.Emptied) : (ic.leave z st).Emptied := by
  obtain ⟨-, e⟩ | ⟨hz, e⟩ := ic.leave_cases z st <;> rw [e]
  · exact Incident.afterOrder_emptied _ _
  · intro k
    have all : ic.fireOrder.filter (· != z) = ic.fireOrder :=
      List.filter_eq_self.mpr fun a ha => by simpa using fun e : a = z => hz (e ▸ ha)
    have none : ic.fireOrder = [] := all.symm.trans k
    simp [Incident.remove, h none]

/-! ### A new lead zone brings re-evaluation (R16, R17) -/

theorem Incident.Sound.reEvaluate_judged {ic : Incident} (h : ic.Sound) : ic.reEvaluate.Judged :=
  (h.ranked.reEvaluate_judged h.lockedOnce fun _ hz k => h.not_locked k hz).1

theorem Incident.Sound.afterOrder_judged {ic : Incident} (h : ic.Sound) (head : Option ZoneId) :
    (ic.afterOrder head).lead = head ∨ (ic.afterOrder head).Judged := by
  unfold Incident.afterOrder
  split
  case isTrue e => exact .inr ((ic.restart_keeps (List.isEmpty_iff.mp e)) h).1.reEvaluate_judged
  case isFalse =>
    split
    case isTrue e => exact .inl e
    case isFalse => exact .inr h.reEvaluate_judged

theorem Incident.Sound.leave_judged {ic : Incident} (h : ic.Sound) (z : ZoneId) (hst : st = .normal ∨ st = .heldOff) :
    (ic.leave z st).lead = ic.lead ∨ (ic.leave z st).Judged := by
  obtain ⟨-, e⟩ | ⟨hz, e⟩ := ic.leave_cases z st <;> rw [e]
  · exact (ic.remove_keeps z st hst h).1.afterOrder_judged ic.lead
  · have all : ic.fireOrder.filter (· != z) = ic.fireOrder :=
      List.filter_eq_self.mpr fun a ha => by simpa using fun e : a = z => hz (e ▸ ha)
    exact .inl (congrArg List.head? all)

end

end Sys2Proof.Machine
end


section
/-!
SUPPORT. What the operations of the Incident Controller and the Test Sequencer do to the site: the zone table and lists as the
Incident Controller's own operations give them, and the contexts of the zones that an operation begins, ends or leaves.
-/

namespace Sys2Proof.Machine

/-- From `x` to `y` the Timebase stands and the test in progress keeps its zone. -/
structure Site.Stands (x y : Site) : Prop where
  now : y.works.plant.now = x.works.plant.now
  test : y.works.ts.test.map Test.zone = x.works.ts.test.map Test.zone

/-- From `x` to `x'` zone `y` neither changes its state nor its places in the lists, and its execution goes on. -/
structure Site.Spares (y : ZoneId) (x x' : Site) : Prop where
  ic : Incident.Spares y x.ic x'.ic
  works : Works.Follows y x.works x'.works

theorem Site.Stands.refl (x : Site) : Site.Stands x x := ⟨rfl, rfl⟩

theorem Site.Stands.trans {x y z : Site} (h : Site.Stands x y) (i : Site.Stands y z) : Site.Stands x z :=
  ⟨i.now.trans h.now, i.test.trans h.test⟩

theorem Site.Spares.refl (y : ZoneId) (x : Site) : Site.Spares y x x := ⟨.refl y _, .refl y _⟩

theorem Site.Spares.trans {y : ZoneId} {u v w : Site} (h : Site.Spares y u v) (i : Site.Spares y v w) :
    Site.Spares y u w :=
  ⟨h.ic.trans i.ic, h.works.trans i.works⟩

/-- Following speaks of contexts and demand lists alone. -/
theorem Works.Follows.congr {y : ZoneId} {u u' v v' : Works} (h : Works.Follows y u v) (hv : v'.px = v.px)
    (ev : v'.plant.demands = v.plant.demands) (hu : u.px = u'.px) (eu : u.plant.demands = u'.plant.demands) :
    Works.Follows y u' v' := by
  have names {w w' : Works} (e : w'.plant.demands = w.plant.demands) (a : ActId) (n : w'.plant.Names a (.zone y)) :
      w.plant.Names a (.zone y) := by
    obtain ⟨d, hd, ho⟩ := n
    exact ⟨d, e ▸ hd, ho⟩
  have ctx {w w' : Works} (e : w'.px = w.px) : w'.ctx y = w.ctx y := by rw [Works.ctx, e, Works.ctx]
  exact ((Works.Follows.of_same (ctx hu) (names eu)).trans h).trans (.of_same (ctx hv) (names ev))

theorem Site.Spares.zone {y : ZoneId} {x x' : Site} (h : Site.Spares y x x') :
    ∃ r, x'.zone y = { x.zone y with rank := r } := h.ic.renumbered

section
variable (m : Pmc) (x : Site) (y z : ZoneId) (o : Origin) (c : ZoneCause) (st : ZoneState) (head : Option ZoneId)

/-! ### Admission -/

@[simp] theorem Site.becomeActive_ic : (x.becomeActive m z o c).ic = x.ic.enroll z o := rfl

/-- The site as a zone is admitted, before its plan begins. -/
theorem Site.becomeActive_works :
    (x.becomeActive m z o c).works =
      ({ x with ic := x.ic.enroll z o }.reportZone z c).works.begin m (x.ic.enroll z o).fireOrder z .fire
        ((x.ic.enroll z o).config z).planBlock := rfl

theorem Site.becomeActive_stands : Site.Stands x (x.becomeActive m z o c) := by
  obtain ⟨-, hn, ht, -⟩ := Works.begin_spec m (x.ic.enroll z o).fireOrder z
    ({ x with ic := x.ic.enroll z o }.reportZone z c).works .fire ((x.ic.enroll z o).config z).planBlock
  exact ⟨hn, ht⟩

/-- An admitted zone begins its plan at step 1 (R20). -/
theorem Site.becomeActive_fresh :
    ∃ k, (x.becomeActive m z o c).works.ctx z = some k
      ∧ Ctx.Fresh (m.choosePlan (x.ic.config z).planBlock) .fire k := by
  obtain ⟨fresh, -⟩ := Works.begin_spec m (x.ic.enroll z o).fireOrder z
    ({ x with ic := x.ic.enroll z o }.reportZone z c).works .fire ((x.ic.enroll z o).config z).planBlock
  have config : (x.ic.enroll z o).config z = x.ic.config z := by simp [Incident.config]
  rw [Site.becomeActive_works]
  rw [config] at fresh ⊢
  exact fresh

theorem Site.becomeActive_spares (h : y ≠ z) : Site.Spares y x (x.becomeActive m z o c) := by
  obtain ⟨-, -, -, hf⟩ := Works.begin_spec m (x.ic.enroll z o).fireOrder z
    ({ x with ic := x.ic.enroll z o }.reportZone z c).works .fire ((x.ic.enroll z o).config z).planBlock
  exact ⟨x.ic.enroll_spares y z o h, (hf y h).congr rfl rfl rfl rfl⟩

theorem Site.becomeActive_zone_same :
    (x.becomeActive m z o c).zone z =
      { x.ic.nextRank.zone z with state := .active, origin := some o, rank := some x.ic.nextRank.rank, purge := none } :=
  x.ic.enlist_zone_same z o

@[simp] theorem Site.startIncident_ic : (x.startIncident m).ic = x.ic := by
  unfold Site.startIncident
  rw [Site.onWorks_ic]

theorem Site.startIncident_works : (x.startIncident m).works = x.works.withdrawNormals m x.ic.fireOrder := by
  unfold Site.startIncident
  rw [Site.onWorks_works]

theorem Site.startIncident_evolves : Works.Evolves x.works (x.startIncident m).works := by
  rw [Site.startIncident_works]
  exact x.works.withdrawNormals_evolves m x.ic.fireOrder

theorem Site.startIncident_stands : Site.Stands x (x.startIncident m) :=
  ⟨(x.startIncident_evolves m).now, (x.startIncident_evolves m).test⟩

theorem Site.startIncident_spares : Site.Spares y x (x.startIncident m) := by
  refine ⟨?_, (x.startIncident_evolves m).follows y⟩
  rw [Site.startIncident_ic]
  exact .refl y _

/-- After incident start no list holds a NORMAL entry (R18, R60). -/
theorem Site.startIncident_normals (a : ActId) (e : Demand) (he : e ∈ (x.startIncident m).works.plant.demands.look a) :
    e.orig ≠ .bl := by
  rw [Site.startIncident_works] at he
  exact fun k => x.works.withdrawNormals_names m x.ic.fireOrder a ⟨e, he, k⟩

@[simp] theorem Site.lockOut_ic : (x.lockOut z c).ic = x.ic.lockOut z := rfl

/-! ### Re-evaluation (R17) -/

theorem Site.reAdmit_cases :
    (x.ic.fireOrder.isEmpty || x.ic.compatible z) = true ∧ x.reAdmit m z = x.becomeActive m z .alarm .reEvaluation
      ∨ (x.ic.fireOrder.isEmpty || x.ic.compatible z) = false ∧ x.reAdmit m z = x := by
  unfold Site.reAdmit
  cases x.ic.fireOrder.isEmpty || x.ic.compatible z <;> simp

@[simp] theorem Site.reAdmit_ic : (x.reAdmit m z).ic = x.ic.readmit z := by
  unfold Site.reAdmit Incident.readmit
  split <;> rfl

@[simp] theorem Site.reAdmits_ic (l : List ZoneId) : (l.foldl (Site.reAdmit m) x).ic = l.foldl Incident.readmit x.ic := by
  induction l generalizing x with
  | nil => rfl
  | cons z l ih => rw [List.foldl_cons, List.foldl_cons, ih, Site.reAdmit_ic]

theorem Site.reAdmit_stands : Site.Stands x (x.reAdmit m z) := by
  obtain ⟨-, e⟩ | ⟨-, e⟩ := x.reAdmit_cases m z <;> rw [e]
  · exact x.becomeActive_stands ..
  · exact .refl x

theorem Site.reAdmit_spares (h : y ≠ z) : Site.Spares y x (x.reAdmit m z) := by
  obtain ⟨-, e⟩ | ⟨-, e⟩ := x.reAdmit_cases m z <;> rw [e]
  · exact x.becomeActive_spares m y z _ _ h
  · exact .refl y x

theorem Site.reAdmits_stand (l : List ZoneId) : Site.Stands x (l.foldl (Site.reAdmit m) x) := by
  induction l generalizing x with
  | nil => exact .refl x
  | cons z l ih => exact (x.reAdmit_stands m z).trans (ih _)

theorem Site.reAdmits_spare (l : List ZoneId) (h : y ∉ l) : Site.Spares y x (l.foldl (Site.reAdmit m) x) := by
  induction l generalizing x with
  | nil => exact .refl y x
  | cons z l ih =>
    rw [List.mem_cons, not_or] at h
    exact (x.reAdmit_spares m y z h.1).trans (ih _ h.2)

@[simp] theorem Site.reEvaluate_ic : (x.reEvaluate m).ic = x.ic.reEvaluate := x.reAdmits_ic m _

/-- A zone taken from the locked-out list (R17, R20): ACTIVE with origin ALARM in the fire order, at step 1 of its plan. -/
structure Site.Admitted (m : Pmc) (z : ZoneId) (x : Site) : Prop where
  state : (x.zone z).state = .active
  origin : (x.zone z).origin = some .alarm
  order : z ∈ x.ic.fireOrder
  fresh : ∃ c, x.works.ctx z = some c ∧ Ctx.Fresh (m.choosePlan (x.ic.config z).planBlock) .fire c

theorem Site.Admitted.spared {m : Pmc} {z : ZoneId} {x x' : Site} (h : x.Admitted m z) (s : Site.Spares z x x') :
    x'.Admitted m z := by
  obtain ⟨r, hr⟩ := s.zone
  obtain ⟨c, hc, hf⟩ := h.fresh
  exact ⟨by rw [hr]; exact h.state, by rw [hr]; exact h.origin, s.ic.order.mpr h.order,
    c, s.works.kept c hc hf.dwell, by rw [s.ic.config]; exact hf⟩

theorem Site.becomeActive_admitted : (x.becomeActive m z .alarm c).Admitted m z := by
  obtain ⟨k, hk, hf⟩ := x.becomeActive_fresh m z .alarm c
  have config : (x.becomeActive m z .alarm c).ic.config z = x.ic.config z := by simp [Incident.config]
  exact ⟨by rw [Site.becomeActive_zone_same], by rw [Site.becomeActive_zone_same],
    (x.ic.mem_enlist z z .alarm).mpr (.inl rfl), k, hk, by rw [config]; exact hf⟩

/-- A zone that a walk of the locked-out list takes from it has been admitted. -/
theorem Site.reAdmits_admitted (l : List ZoneId) (hl : l.Nodup) (hz : z ∈ x.ic.lockedOut)
    (hout : z ∉ (l.foldl (Site.reAdmit m) x).ic.lockedOut) : (l.foldl (Site.reAdmit m) x).Admitted m z := by
  induction l generalizing x with
  | nil => exact absurd hz hout
  | cons a l ih =>
    obtain ⟨ha, hl⟩ := List.nodup_cons.mp hl
    rw [List.foldl_cons] at hout ⊢
    by_cases e : z = a
    · subst e
      have later := (x.reAdmit m z).reAdmits_spare m z l ha
      obtain ⟨-, e⟩ | ⟨-, e⟩ := x.reAdmit_cases m z <;> rw [e] at later hout ⊢
      · exact (x.becomeActive_admitted m z _).spared later
      · exact absurd (later.ic.locked.mpr hz) hout
    · exact ih _ hl ((x.reAdmit_spares m z a e).ic.locked.mpr hz) hout

theorem Site.reEvaluate_stands : Site.Stands x (x.reEvaluate m) := x.reAdmits_stand m _

theorem Site.reEvaluate_spares (h : y ∉ x.ic.lockedOut) : Site.Spares y x (x.reEvaluate m) := x.reAdmits_spare m y _ h

/-! ### What follows a change of the fire order (R16, R19) -/

@[simp] theorem Site.afterOrder_ic : (x.afterOrder m head).ic = x.ic.afterOrder head := by
  unfold Site.afterOrder Incident.afterOrder
  split
  · exact Site.reEvaluate_ic ..
  · split
    · rfl
    · exact Site.reEvaluate_ic ..

theorem Site.afterOrder_stands : Site.Stands x (x.afterOrder m head) := by
  unfold Site.afterOrder
  split
  · have ended : Site.Stands x { x with ic := { x.ic with rank := 0 } } := ⟨rfl, rfl⟩
    exact ended.trans (Site.reEvaluate_stands ..)
  · split
    · exact .refl x
    · exact x.reEvaluate_stands m

theorem Site.afterOrder_spares (h : y ∉ x.ic.lockedOut) : Site.Spares y x (x.afterOrder m head) := by
  unfold Site.afterOrder
  split
  · have ended : Site.Spares y x { x with ic := { x.ic with rank := 0 } } := ⟨.of_same rfl .rfl .rfl rfl, .refl y _⟩
    exact ended.trans (Site.reEvaluate_spares m _ y h)
  · split
    · exact .refl y x
    · exact x.reEvaluate_spares m y h

theorem Site.afterOrder_admitted (hl : x.ic.lockedOut.Nodup) (hz : z ∈ x.ic.lockedOut)
    (hout : z ∉ (x.afterOrder m head).ic.lockedOut) : (x.afterOrder m head).Admitted m z := by
  unfold Site.afterOrder at hout ⊢
  split at hout
  case isTrue h =>
    rw [if_pos h]
    exact Site.reAdmits_admitted m { x with ic := { x.ic with rank := 0 } } z _ hl hz hout
  case isFalse h =>
    rw [if_neg h]
    split at hout
    case isTrue => exact absurd hz hout
    case isFalse h' =>
      rw [if_neg h']
      exact x.reAdmits_admitted m z _ hl hz hout

/-! ### Departure (R11, R14) -/

/-- Zone `z` gone from both lists in state `st`, its demands withdrawn, before what follows a change of the fire order. -/
def Site.depart (m : Pmc) (z : ZoneId) (st : ZoneState) (c : ZoneCause) (x : Site) : Site :=
  ({ x with ic := x.ic.remove z st }.reportZone z c).onWorks (Works.withdraw m x.ic.fireOrder z)

theorem Site.leave_cases :
    z ∈ x.ic.fireOrder ∧ x.leave m z st c = (x.depart m z st c).afterOrder m x.ic.lead
      ∨ z ∉ x.ic.fireOrder ∧ x.leave m z st c = x.depart m z st c := by
  by_cases h : z ∈ x.ic.fireOrder
  · exact .inl ⟨h, if_pos (by simpa using h)⟩
  · exact .inr ⟨h, if_neg (by simpa using h)⟩

@[simp] theorem Site.depart_ic : (x.depart m z st c).ic = x.ic.remove z st := rfl

theorem Site.depart_stands : Site.Stands x (x.depart m z st c) :=
  ⟨Works.withdraw_now .., Works.withdraw_test ..⟩

theorem Site.depart_spares (h : y ≠ z) : Site.Spares y x (x.depart m z st c) := by
  have f := Works.withdraw_follows m x.ic.fireOrder z ({ x with ic := x.ic.remove z st }.reportZone z c).works h
  exact ⟨x.ic.remove_spares y z st h, f.congr rfl rfl rfl rfl⟩

theorem Site.depart_ctx : (x.depart m z st c).works.ctx z = none := Works.withdraw_ctx_same ..

theorem Site.depart_covers (h : x.works.Covers z) : (x.depart m z st c).works.Covers z := Works.withdraw_covers _ _ _ _ h

@[simp] theorem Site.leave_ic : (x.leave m z st c).ic = x.ic.leave z st := by
  obtain ⟨h, e⟩ | ⟨h, e⟩ := x.leave_cases m z c st <;> rw [e]
  · rw [Site.afterOrder_ic, Site.depart_ic, Incident.leave, if_pos (by simpa using h)]
  · rw [Site.depart_ic, Incident.leave, if_neg (by simpa using h)]

theorem Site.leave_stands : Site.Stands x (x.leave m z st c) := by
  obtain ⟨-, e⟩ | ⟨-, e⟩ := x.leave_cases m z c st <;> rw [e]
  · exact (x.depart_stands m z c st).trans (Site.afterOrder_stands ..)
  · exact x.depart_stands m z c st

/-- A zone that has left is spared by what follows. -/
theorem Site.leave_spares_left : Site.Spares z (x.depart m z st c) (x.leave m z st c) := by
  obtain ⟨-, e⟩ | ⟨-, e⟩ := x.leave_cases m z c st <;> rw [e]
  · exact Site.afterOrder_spares _ _ _ _ (x.ic.not_mem_remove z st).2
  · exact .refl z _

theorem Site.leave_zone_same :
    (x.leave m z st c).zone z = { x.zone z with state := st, origin := none, rank := none, purge := none } :=
  ((x.leave_spares_left m z c st).ic.unranked (x.ic.not_mem_remove z st).1).trans (x.ic.remove_zone_same z st)

theorem Site.leave_not_mem : z ∉ (x.leave m z st c).ic.fireOrder ∧ z ∉ (x.leave m z st c).ic.lockedOut := by
  have spared := (x.leave_spares_left m z c st).ic
  rw [spared.order, spared.locked]
  exact x.ic.not_mem_remove z st

theorem Site.leave_ctx : (x.leave m z st c).works.ctx z = none :=
  (x.leave_spares_left m z c st).works.idle (x.depart_ctx m z c st)

theorem Site.leave_admitted (hl : x.ic.lockedOut.Nodup) (h : y ≠ z) (hy : y ∈ x.ic.lockedOut)
    (hout : y ∉ (x.leave m z st c).ic.lockedOut) : (x.leave m z st c).Admitted m y := by
  have still : y ∈ (x.depart m z st c).ic.lockedOut := (x.ic.remove_spares y z st h).locked.mpr hy
  obtain ⟨-, e⟩ | ⟨-, e⟩ := x.leave_cases m z c st <;> rw [e] at hout ⊢
  · exact Site.afterOrder_admitted _ _ _ _ (hl.filter _) still hout
  · exact absurd still hout

/-! ### A change of origin (R4, R13, R15) -/

/-- Zone `z` in the place that its origin and rank give, and its FIRE entries with it, before what follows a change of the fire
order. -/
def Site.move (m : Pmc) (z : ZoneId) (c : ZoneCause) (x : Site) : Site :=
  ({ x with ic := x.ic.place z }.reportZone z c).onWorks (Works.reorder m (x.ic.place z).fireOrder)

@[simp] theorem Site.move_ic : (x.move m z c).ic = x.ic.place z := rfl

theorem Site.move_works :
    (x.move m z c).works = ({ x with ic := x.ic.place z }.reportZone z c).works.reorder m (x.ic.place z).fireOrder := by
  unfold Site.move
  rw [Site.onWorks_works]

theorem Site.move_stands : Site.Stands x (x.move m z c) := by
  have e := ({ x with ic := x.ic.place z }.reportZone z c).works.reorder_evolves m (x.ic.place z).fireOrder
  rw [← Site.move_works] at e
  exact ⟨e.now, e.test⟩

theorem Site.move_follows : Works.Follows y x.works (x.move m z c).works := by
  rw [Site.move_works]
  exact ((Works.reorder_evolves ..).follows y).congr rfl rfl rfl rfl

/-! ### The start and the closing of a test (R119, R122, R124) -/

theorem Site.closeTest_of_none (cause : Option AbortCause) (h : x.works.ts.test = none) : x.closeTest m cause = x := by
  unfold Site.closeTest
  rw [h]

/-- The closing of a test makes its zone NORMAL and withdraws its demands; every other zone goes on. -/
theorem Site.closeTest_spec (cause : Option AbortCause) (u : Test) (h : x.works.ts.test = some u) :
    (x.closeTest m cause).ic = x.ic.modZone u.zone (fun r => { r with state := .normal })
      ∧ (x.closeTest m cause).works.ts.test = none
      ∧ (x.closeTest m cause).works.ctx u.zone = none
      ∧ (x.closeTest m cause).works.plant.now = x.works.plant.now
      ∧ (∀ y, y ≠ u.zone → Works.Follows y x.works (x.closeTest m cause).works)
      ∧ (x.works.Covers u.zone → (x.closeTest m cause).works.Covers u.zone) := by
  unfold Site.closeTest
  rw [h]
  dsimp only
  refine ⟨rfl, rfl, Works.withdraw_ctx_same .., Works.withdraw_now .., fun y e => ?_,
    fun k => Works.withdraw_covers m x.ic.fireOrder u.zone _ k⟩
  exact (Works.withdraw_follows m x.ic.fireOrder u.zone _ e).congr rfl rfl rfl rfl

end

end Sys2Proof.Machine
end


section
/-!
SUPPORT. The agreement of the whole site: zone table, lists, contexts and the test in progress (R2, R4, R6, R24, R116). Each
operation of the Incident Controller and the Test Sequencer keeps it, keeps the fire order sorted (R4, R5), and re-evaluates
where it changes the lead zone (R16, R17).
-/

namespace Sys2Proof.Machine

/-- Zone `z` executes and is under test as its state says (R2, R24, R116). -/
structure Site.AgreesAt (x : Site) (z : ZoneId) : Prop where
  executing : (x.works.ctx z).isSome = true ↔ (x.zone z).state.executes = true
  testing : (x.zone z).state = .testing ↔ x.works.ts.test.map Test.zone = some z

/-- `Site.Consistent`, but for an emptied fire order. -/
structure Site.Whole (x : Site) : Prop where
  sound : x.ic.Sound
  agrees : ∀ z, x.AgreesAt z

theorem Site.consistent_iff (x : Site) : x.Consistent ↔ x.Whole ∧ x.ic.Emptied := by
  have test (z : ZoneId) : (∃ u, x.works.ts.test = some u ∧ u.zone = z) ↔ x.works.ts.test.map Test.zone = some z := by
    rw [Option.map_eq_some_iff]
  constructor
  · rintro ⟨orderOnce, lockedOnce, order, locked, origin, rank, purge, executing, testing, counter, given, emptied⟩
    exact ⟨⟨⟨orderOnce, lockedOnce, counter,
      fun z => ⟨order z, locked z, origin z, rank z, purge z, given z⟩⟩,
      fun z => ⟨executing z, (testing z).trans (test z)⟩⟩, emptied⟩
  · rintro ⟨⟨⟨orderOnce, lockedOnce, counter, each⟩, agrees⟩, emptied⟩
    exact ⟨orderOnce, lockedOnce, fun z => (each z).order, fun z => (each z).locked, fun z => (each z).origin,
      fun z => (each z).rank, fun z => (each z).purge, fun z => (agrees z).executing,
      fun z => (agrees z).testing.trans (test z).symm, counter, fun z => (each z).given, emptied⟩

/-- A change that keeps the agreement, and with it the order of the fire order. -/
def Site.Keeps (x y : Site) : Prop := x.Whole → y.Whole ∧ (x.ic.Sorted → y.ic.Sorted)

theorem Site.Keeps.refl (x : Site) : x.Keeps x := fun h => ⟨h, id⟩

theorem Site.Keeps.trans {x y z : Site} (h : x.Keeps y) (i : y.Keeps z) : x.Keeps z := fun s =>
  ⟨(i (h s).1).1, fun o => (i (h s).1).2 ((h s).2 o)⟩

/-- A zone spared while the test keeps its zone agrees as before. -/
theorem Site.AgreesAt.spared {x x' : Site} {y : ZoneId} (h : x.AgreesAt y) (s : Site.Spares y x x')
    (t : Site.Stands x x') : x'.AgreesAt y := by
  have state : (x'.zone y).state = (x.zone y).state := s.ic.state
  exact ⟨by rw [s.works.isSome, state]; exact h.executing, by rw [t.test, state]; exact h.testing⟩

/-- A zone whose execution goes on, in a state that executes as the one before and is TESTING as it, agrees as before. -/
theorem Site.AgreesAt.follow {x x' : Site} {y : ZoneId} (h : x.AgreesAt y) (f : Works.Follows y x.works x'.works)
    (t : x'.works.ts.test.map Test.zone = x.works.ts.test.map Test.zone)
    (he : (x'.zone y).state.executes = (x.zone y).state.executes)
    (ht : (x'.zone y).state = .testing ↔ (x.zone y).state = .testing) : x'.AgreesAt y :=
  ⟨by rw [f.isSome, he]; exact h.executing, by rw [t, ht]; exact h.testing⟩

/-- A change about one zone keeps the agreement where it does at the Incident Controller and at that zone. -/
theorem Site.keeps_of_zone {x y : Site} (z : ZoneId) (hi : x.ic.Keeps y.ic) (ht : Site.Stands x y)
    (hs : ∀ a, a ≠ z → Site.Spares a x y) (hz : x.Whole → y.AgreesAt z) : x.Keeps y := by
  intro h
  obtain ⟨sound, sorted⟩ := hi h.sound
  refine ⟨⟨sound, fun a => ?_⟩, sorted⟩
  by_cases e : a = z
  · exact e ▸ hz h
  · exact (h.agrees a).spared (hs a e) ht

section
variable (m : Pmc) (x : Site) (y z : ZoneId) (o : Origin) (c : ZoneCause) (st : ZoneState) (head : Option ZoneId)

/-! ### Admission, re-evaluation and departure -/

theorem Site.becomeActive_keeps (hz : x.works.ts.test.map Test.zone ≠ some z) : x.Keeps (x.becomeActive m z o c) := by
  have stands := x.becomeActive_stands m z o c
  refine Site.keeps_of_zone z (x.ic.enroll_keeps z o) stands (fun a e => x.becomeActive_spares m a z o c e) fun _ => ?_
  obtain ⟨k, hk, -⟩ := x.becomeActive_fresh m z o c
  refine ⟨?_, ?_⟩
  · rw [hk, Site.becomeActive_zone_same]; simp [ZoneState.executes]
  · rw [stands.test, Site.becomeActive_zone_same]; simpa using hz

theorem Site.startIncident_keeps : x.Keeps (x.startIncident m) := by
  intro h
  refine ⟨⟨?_, fun a => (h.agrees a).spared (x.startIncident_spares m a) (x.startIncident_stands m)⟩, ?_⟩ <;>
    rw [Site.startIncident_ic]
  · exact h.sound
  · exact id

theorem Site.reAdmits_keeps (l : List ZoneId) (hl : ∀ z ∈ l, x.works.ts.test.map Test.zone ≠ some z) :
    x.Keeps (l.foldl (Site.reAdmit m) x) := by
  induction l generalizing x with
  | nil => exact .refl x
  | cons z l ih =>
    refine Site.Keeps.trans ?_ (ih _ fun a ha => ?_)
    · obtain ⟨-, e⟩ | ⟨-, e⟩ := x.reAdmit_cases m z <;> rw [e]
      · exact x.becomeActive_keeps m z _ _ (hl z List.mem_cons_self)
      · exact .refl x
    · rw [(x.reAdmit_stands m z).test]
      exact hl a (List.mem_cons_of_mem _ ha)

/-- No zone of the locked-out list is under test. -/
theorem Site.Whole.not_tested {x : Site} (h : x.Whole) {z : ZoneId} (hz : (x.zone z).state ≠ .testing) :
    x.works.ts.test.map Test.zone ≠ some z :=
  fun k => hz ((h.agrees z).testing.mpr k)

theorem Site.Whole.locked_state {x : Site} (h : x.Whole) {z : ZoneId} (hz : z ∈ x.ic.lockedOut) :
    (x.zone z).state = .lockedOut :=
  (h.sound.each z).locked.mp hz

theorem Site.reEvaluate_keeps : x.Keeps (x.reEvaluate m) := fun h =>
  x.reAdmits_keeps m x.ic.lockedOut (fun z hz => h.not_tested (by rw [h.locked_state hz]; simp)) h

theorem Site.afterOrder_keeps : x.Keeps (x.afterOrder m head) := by
  unfold Site.afterOrder
  split
  case isTrue e =>
    refine Site.Keeps.trans (fun h => ?_) (Site.reEvaluate_keeps m _)
    obtain ⟨sound, sorted⟩ := x.ic.restart_keeps (List.isEmpty_iff.mp e) h.sound
    exact ⟨⟨sound, fun a => ⟨(h.agrees a).executing, (h.agrees a).testing⟩⟩, sorted⟩
  case isFalse =>
    split
    · exact .refl x
    · exact x.reEvaluate_keeps m

theorem Site.depart_keeps (hst : st = .normal ∨ st = .heldOff) (hz : x.works.ts.test.map Test.zone ≠ some z) :
    x.Keeps (x.depart m z st c) := by
  have stands := x.depart_stands m z c st
  refine Site.keeps_of_zone z (x.ic.remove_keeps z st hst) stands (fun a e => x.depart_spares m a z c st e) fun _ => ?_
  have zone : (x.depart m z st c).zone z = _ := x.ic.remove_zone_same z st
  refine ⟨?_, ?_⟩
  · rw [x.depart_ctx m z c st, zone]
    obtain rfl | rfl := hst <;> simp [ZoneState.executes]
  · rw [stands.test, zone]
    obtain rfl | rfl := hst <;> simpa using hz

theorem Site.leave_keeps (hst : st = .normal ∨ st = .heldOff) (hz : x.works.ts.test.map Test.zone ≠ some z) :
    x.Keeps (x.leave m z st c) := by
  obtain ⟨-, e⟩ | ⟨-, e⟩ := x.leave_cases m z c st <;> rw [e]
  · exact (x.depart_keeps m z c st hst hz).trans (Site.afterOrder_keeps m _ _)
  · exact x.depart_keeps m z c st hst hz

/-- A zone that is executing and not under test is moved with its record changed as the Incident Controller changes it. -/
theorem Site.move_keeps {ic : Incident} (hi : x.ic.Keeps (ic.place z))
    (hs : ∀ a, a ≠ z → Incident.Spares a x.ic (ic.place z))
    (he : (ic.zone z).state.executes = (x.zone z).state.executes)
    (ht : (ic.zone z).state = .testing ↔ (x.zone z).state = .testing) : x.Keeps (Site.move m z c { x with ic := ic }) := by
  have stands := Site.move_stands m { x with ic := ic } z c
  have follows (a : ZoneId) := Site.move_follows m { x with ic := ic } a z c
  exact Site.keeps_of_zone z hi ⟨stands.now, stands.test⟩ (fun a e => ⟨hs a e, follows a⟩) fun h =>
    (h.agrees z).follow (follows z) stands.test he ht

/-! ### Small changes -/

/-- A change that keeps the agreement and moves no zone in or out of a list. -/
structure Site.Minor (x y : Site) : Prop where
  keeps : x.Keeps y
  order : y.ic.fireOrder = x.ic.fireOrder
  locked : y.ic.lockedOut = x.ic.lockedOut

theorem Site.Minor.refl (x : Site) : x.Minor x := ⟨.refl x, rfl, rfl⟩

theorem Site.Minor.trans {x y z : Site} (h : x.Minor y) (i : y.Minor z) : x.Minor z :=
  ⟨h.keeps.trans i.keeps, i.order.trans h.order, i.locked.trans h.locked⟩

/-- A change of the works that neither begins nor ends an execution or a test. -/
theorem Site.minor_of_works {x y : Site} (hi : y.ic = x.ic) (hc : ∀ z, (y.works.ctx z).isSome = (x.works.ctx z).isSome)
    (ht : y.works.ts.test.map Test.zone = x.works.ts.test.map Test.zone) : x.Minor y := by
  have zone (z : ZoneId) : y.zone z = x.zone z := by rw [Site.zone, hi, Site.zone]
  refine ⟨fun h => ⟨⟨hi ▸ h.sound, fun z => ⟨?_, ?_⟩⟩, hi ▸ id⟩, by rw [hi], by rw [hi]⟩
  · rw [hc, zone]; exact (h.agrees z).executing
  · rw [ht, zone]; exact (h.agrees z).testing

theorem Site.reportZone_minor : x.Minor (x.reportZone z c) := Site.minor_of_works rfl (fun _ => rfl) rfl

/-- A change of one record within its state's class, its origin and rank kept. -/
theorem Site.modZone_minor (g : Zone → Zone) (hf : (g (x.zone z)).state.inFire = (x.zone z).state.inFire)
    (hl : (g (x.zone z)).state = .lockedOut ↔ (x.zone z).state = .lockedOut)
    (ht : (g (x.zone z)).state = .testing ↔ (x.zone z).state = .testing)
    (ho : (g (x.zone z)).origin = (x.zone z).origin) (hr : (g (x.zone z)).rank = (x.zone z).rank)
    (hp : x.ic.SoundAt z → ((g (x.zone z)).purge.isSome = true ↔ (g (x.zone z)).state = .restoring)) :
    x.Minor (x.modZone z g) := by
  have executes (s : ZoneState) : s.executes = true ↔ s.inFire = true ∨ s = .testing := by
    cases s <;> simp [ZoneState.executes, ZoneState.inFire]
  refine ⟨Site.keeps_of_zone z (x.ic.modZone_keeps z g hf hl ho hr hp) ⟨rfl, rfl⟩
    (fun a e => ⟨.of_same rfl .rfl .rfl (x.ic.modZone_zone_other z a g e), .refl a _⟩) fun h => ?_, rfl, rfl⟩
  refine (h.agrees z).follow (.refl z _) rfl ?_ ?_ <;> rw [Site.modZone_zone_same]
  · rw [Bool.eq_iff_iff, executes, executes, hf, ht]
  · exact ht

/-- A change of a record that leaves its state, origin, rank and deadline. -/
theorem Site.modZone_minor_of_same (g : Zone → Zone) (hs : (g (x.zone z)).state = (x.zone z).state)
    (ho : (g (x.zone z)).origin = (x.zone z).origin) (hr : (g (x.zone z)).rank = (x.zone z).rank)
    (hp : (g (x.zone z)).purge = (x.zone z).purge) : x.Minor (x.modZone z g) := by
  refine x.modZone_minor z g (by rw [hs]) (by rw [hs]) (by rw [hs]) ho hr fun h => ?_
  rw [hp, hs]
  exact h.purge

/-- Only a zone that is RESTORING holds a purge deadline (R2). -/
theorem Incident.SoundAt.purge_eq_none {ic : Incident} {z : ZoneId} (h : ic.SoundAt z)
    (hs : (ic.zone z).state ≠ .restoring) : (ic.zone z).purge = none := by
  simpa using fun k => hs (h.purge.mp k)

theorem Site.closeTest_minor (cause : Option AbortCause) : x.Minor (x.closeTest m cause) := by
  cases h : x.works.ts.test with
  | none => rw [x.closeTest_of_none m cause h]; exact .refl x
  | some u =>
    obtain ⟨hic, htest, hctx, -, hfollows, -⟩ := x.closeTest_spec m cause u h
    refine ⟨fun w => ?_, by rw [hic]; rfl, by rw [hic]; rfl⟩
    have zone (a : ZoneId) : (x.closeTest m cause).zone a = (x.ic.modZone u.zone fun r => { r with state := .normal }).zone a := by
      rw [Site.zone, hic]
    have testing : (x.ic.zone u.zone).state = .testing := (w.agrees u.zone).testing.mpr (by rw [h]; rfl)
    obtain ⟨sound, sorted⟩ := x.ic.modZone_keeps u.zone (fun r => { r with state := .normal })
      (by rw [testing]; rfl) (by rw [testing]; simp) rfl rfl
      (fun k => by rw [k.purge_eq_none (by rw [testing]; simp)]; simp) w.sound
    refine ⟨⟨by rw [hic]; exact sound, fun a => ?_⟩, by rw [hic]; exact sorted⟩
    by_cases e : a = u.zone
    · subst e
      refine ⟨?_, ?_⟩
      · rw [hctx, zone, Incident.modZone_zone_same]; simp [ZoneState.executes]
      · rw [htest, zone, Incident.modZone_zone_same]; simp
    · have other : (x.closeTest m cause).zone a = x.zone a := (zone a).trans (x.ic.modZone_zone_other u.zone a _ e)
      refine ⟨?_, ?_⟩
      · rw [(hfollows a e).isSome, other]; exact (w.agrees a).executing
      · rw [htest, other, (w.agrees a).testing, h]
        simpa using Ne.symm e

theorem Site.closeTest_test (cause : Option AbortCause) : (x.closeTest m cause).works.ts.test = none := by
  cases h : x.works.ts.test with
  | none => rwa [x.closeTest_of_none m cause h]
  | some u => exact (x.closeTest_spec m cause u h).2.1

theorem Site.startTest_minor (hold : Nat) (ht : x.works.ts.test = none) (hs : (x.zone z).state = .normal) :
    x.Minor (x.startTest m z hold) := by
  have works (t : TestSeq) (b : Option BlockId) := Works.begin_spec m x.ic.fireOrder z
    (({ x with works := { x.works with ts := t } }.modZone z fun r => { r with state := .testing }).reportZone z .test).works
    .test b
  obtain ⟨⟨k, hk, -⟩, -, test, follows⟩ := works _ _
  have zone : (x.startTest m z hold).zone z = { x.zone z with state := .testing } := x.modZone_zone_same z _
  refine ⟨fun w => ?_, rfl, rfl⟩
  obtain ⟨sound, sorted⟩ := x.ic.modZone_keeps z (fun r => { r with state := .testing })
    (by rw [show (x.ic.zone z).state = .normal from hs]; rfl) (by rw [show (x.ic.zone z).state = .normal from hs]; simp) rfl rfl
    (fun k => by rw [k.purge_eq_none (by rw [show (x.ic.zone z).state = .normal from hs]; simp)]; simp) w.sound
  refine ⟨⟨sound, fun a => ?_⟩, sorted⟩
  have tested : (x.startTest m z hold).works.ts.test.map Test.zone = some z := test
  by_cases e : a = z
  · subst e
    refine ⟨?_, ?_⟩
    · rw [zone, show (x.startTest m a hold).works.ctx a = some k from hk]; simp [ZoneState.executes]
    · rw [zone, tested]; simp
  · have other : (x.startTest m z hold).zone a = x.zone a := x.modZone_zone_other z _ a e
    have f : Works.Follows a x.works (x.startTest m z hold).works := (follows a e).congr rfl rfl rfl rfl
    refine ⟨?_, ?_⟩
    · rw [f.isSome, other]; exact (w.agrees a).executing
    · rw [tested, other, (w.agrees a).testing, ht]
      simpa using Ne.symm e

end

end Sys2Proof.Machine
end


section
/-!
SUPPORT. Every operation that a command brings to the site keeps the zones consistent and the fire order sorted, and
re-evaluates the locked-out list where it changes the lead zone.
-/

namespace Sys2Proof.Machine

/-- From a consistent site `x` to `y` the zones stay consistent and the fire order sorted, and a new lead zone has judged the
locked-out list (R16, R17). -/
def Site.Holds (x y : Site) : Prop :=
  x.Consistent → y.Consistent ∧ (x.ic.Sorted → y.ic.Sorted) ∧ (y.ic.lead = x.ic.lead ∨ y.ic.Judged)

theorem Site.Keeps.holds {x y : Site} (h : x.Keeps y) (he : x.Whole → x.ic.Emptied → y.ic.Emptied)
    (hl : x.Whole → x.ic.Emptied → y.ic.lead = x.ic.lead ∨ y.ic.Judged) : x.Holds y := by
  intro c
  obtain ⟨whole, emptied⟩ := x.consistent_iff.mp c
  exact ⟨y.consistent_iff.mpr ⟨(h whole).1, he whole emptied⟩, (h whole).2, hl whole emptied⟩

theorem Site.Minor.holds {x y : Site} (h : x.Minor y) : x.Holds y :=
  h.keeps.holds (fun _ e k => h.locked.trans (e (h.order.symm.trans k))) fun _ _ => .inl (congrArg List.head? h.order)

/-- What holds after a small change holds from before it. -/
theorem Site.Minor.then_holds {x y z : Site} (h : x.Minor y) (i : y.Whole → y.Holds z) : x.Holds z := by
  intro c
  obtain ⟨cy, sy, -⟩ := h.holds c
  obtain ⟨cz, sz, lead⟩ := i (y.consistent_iff.mp cy).1 cy
  exact ⟨cz, fun s => sz (sy s), lead.imp_left fun l => l.trans (congrArg List.head? h.order)⟩

theorem Incident.Sound.not_mem {ic : Incident} (h : ic.Sound) {z : ZoneId} (hz : (ic.zone z).state.inFire = false) :
    z ∉ ic.fireOrder := by
  rw [(h.each z).order, hz]
  simp

section
variable (m : Pmc) (x : Site) (z : ZoneId) (c : ZoneCause) (st : ZoneState) (head : Option ZoneId)

/-- A zone that does not execute is locked out (R7 case 3). -/
theorem Site.lockOut_keeps (hf : (x.zone z).state.inFire = false) (hs : (x.zone z).state ≠ .testing) :
    x.Keeps (x.lockOut z c) := by
  intro h
  have zone (a : ZoneId) (e : a ≠ z) : (x.ic.lockOut z).zone a = x.ic.zone a :=
    x.ic.modZone_zone_other z a (fun r => { r with state := .lockedOut }) e
  refine Site.keeps_of_zone z (x.ic.lockOut_keeps z (h.sound.not_mem hf)) ⟨rfl, rfl⟩ (fun a e => ⟨?_, ?_⟩)
    (fun w => ?_) h
  · exact .of_same rfl .rfl (by simp [Incident.lockOut, e]) (zone a e)
  · exact .of_same rfl fun _ => id
  · have idle : (x.zone z).state.executes = false := by
      revert hf hs
      cases (x.zone z).state <;> simp [ZoneState.inFire, ZoneState.executes]
    have state : ((x.lockOut z c).zone z).state = .lockedOut :=
      congrArg Zone.state (x.ic.modZone_zone_same z fun r => { r with state := .lockedOut })
    refine ⟨?_, ?_⟩
    · rw [state, show (x.lockOut z c).works.ctx z = x.works.ctx z from rfl, (w.agrees z).executing, idle]; rfl
    · rw [state, show (x.lockOut z c).works.ts = x.works.ts from rfl, ← (w.agrees z).testing]
      simpa using hs

/-- The three cases of admission (R7). -/
theorem Site.takeIn_cases :
    x.ic.fireOrder = [] ∧ x.takeIn m z c = (x.becomeActive m z .alarm c).startIncident m
      ∨ x.ic.fireOrder ≠ [] ∧ x.ic.compatible z = true ∧ x.takeIn m z c = x.becomeActive m z .alarm c
      ∨ x.ic.fireOrder ≠ [] ∧ x.ic.compatible z = false ∧ x.takeIn m z c = x.lockOut z c := by
  unfold Site.takeIn
  by_cases h : x.ic.fireOrder = []
  · exact .inl ⟨h, by simp [h]⟩
  · cases k : x.ic.compatible z
    · exact .inr (.inr ⟨h, rfl, by simp [h]⟩)
    · exact .inr (.inl ⟨h, rfl, by simp [h]⟩)

theorem Site.becomeActive_emptied (o : Origin) : (x.becomeActive m z o c).ic.Emptied := fun k =>
  absurd k (x.ic.enroll_fireOrder_ne_nil z o)

/-- Incident start by the first zone of the fire order (R18): no zone is locked out then. -/
theorem Site.startsIncident_holds (o : Origin) (hs : (x.zone z).state ≠ .testing) (ho : x.ic.fireOrder = []) :
    x.Holds ((x.becomeActive m z o c).startIncident m) := by
  refine Site.Keeps.holds (fun h => ?_) (fun _ _ => ?_) fun _ e => .inr fun a ha => ?_
  · exact (x.becomeActive_keeps m z o c (h.not_tested hs)).trans (Site.startIncident_keeps m _) h
  · rw [Site.startIncident_ic]
    exact x.becomeActive_emptied m z c o
  · rw [Site.startIncident_ic, Site.becomeActive_ic, Incident.enroll_lockedOut, e ho] at ha
    cases ha

theorem Site.takeIn_holds (hs : (x.zone z).state = .normal ∨ (x.zone z).state = .heldOff) : x.Holds (x.takeIn m z c) := by
  have hf : (x.zone z).state.inFire = false := by obtain k | k := hs <;> rw [k] <;> rfl
  have ht : (x.zone z).state ≠ .testing := by obtain k | k := hs <;> rw [k] <;> simp
  obtain ⟨ho, e⟩ | ⟨ho, -, e⟩ | ⟨ho, -, e⟩ := x.takeIn_cases m z c <;> rw [e]
  · exact x.startsIncident_holds m z c .alarm ht ho
  · refine Site.Keeps.holds (fun h => x.becomeActive_keeps m z _ c (h.not_tested ht) h)
      (fun _ _ => x.becomeActive_emptied m z c .alarm) fun h _ => .inl ?_
    have all : x.ic.fireOrder.filter (· != z) = x.ic.fireOrder :=
      List.filter_eq_self.mpr fun a ha => by simpa using fun e : a = z => h.sound.not_mem hf (e ▸ ha)
    rw [Site.becomeActive_ic, Incident.lead, Incident.enroll_fireOrder, h.sound.ranked.enlist_fireOrder z, all,
      List.head?_append_of_ne_nil _ ho, Incident.lead]
  · exact Site.Keeps.holds (x.lockOut_keeps z c hf ht) (fun _ _ k => absurd k ho) fun _ _ => .inl rfl

theorem Site.leave_holds (hst : st = .normal ∨ st = .heldOff) (hs : (x.zone z).state ≠ .testing) :
    x.Holds (x.leave m z st c) := by
  refine Site.Keeps.holds (fun h => x.leave_keeps m z c st hst (h.not_tested hs) h) (fun _ e => ?_) fun h _ => ?_ <;>
    rw [Site.leave_ic]
  · exact x.ic.leave_emptied z st e
  · exact h.sound.leave_judged st z hst

/-- A change that what follows a change of the fire order ends holds. -/
theorem Site.Keeps.afterOrder_holds {x y : Site} (h : x.Keeps y) : x.Holds (y.afterOrder m x.ic.lead) := by
  refine Site.Keeps.holds (h.trans (y.afterOrder_keeps m _)) (fun _ _ => ?_) fun w _ => ?_ <;> rw [Site.afterOrder_ic]
  · exact y.ic.afterOrder_emptied _
  · exact (h w).1.sound.afterOrder_judged _

/-! ### The operations -/

theorem Site.abortTest_minor (a : AbortCause) : x.Minor (x.abortTest m a) := x.closeTest_minor m (some a)

theorem Site.abortTest_test (a : AbortCause) : (x.abortTest m a).works.ts.test = none := x.closeTest_test m (some a)

theorem Site.Whole.no_testing {x : Site} (h : x.Whole) (ht : x.works.ts.test = none) (z : ZoneId) :
    (x.zone z).state ≠ .testing := by
  intro k
  have := (h.agrees z).testing.mp k
  rw [ht] at this
  cases this

theorem Site.alarm_holds (l : Line) : x.Holds (x.alarm m l z) := by
  refine Site.Minor.then_holds ((x.abortTest_minor m .alarm).trans (Site.modZone_minor_of_same _ z
    (fun r => { r with holders := r.holders.add l }) rfl rfl rfl rfl)) fun w => ?_
  have none := w.no_testing (x.abortTest_test m .alarm) z
  unfold Site.alarm
  dsimp only
  generalize Site.modZone .. = y at w none
  split
  case h_1 e => exact y.takeIn_holds m z _ (.inl e)
  case h_2 e => exact absurd e none
  case h_3 e =>
    refine Site.Minor.holds (.trans (y.modZone_minor z _ ?_ ?_ ?_ rfl rfl fun _ => ?_) (Site.reportZone_minor _ z _)) <;>
      simp [e, ZoneState.inFire]
  all_goals exact (Site.Minor.refl y).holds

theorem Site.beginPurge_minor (hs : (x.zone z).state = .active) : x.Minor (x.beginPurge z) := by
  refine x.modZone_minor z _ ?_ ?_ ?_ rfl rfl fun _ => ?_ <;> simp [hs, ZoneState.inFire]

theorem Site.restore_holds (l : Line) : x.Holds (x.restore m l z) := by
  refine Site.Minor.then_holds (x.modZone_minor_of_same z (fun r => { r with holders := r.holders.remove l }) rfl rfl rfl rfl)
    fun w => ?_
  unfold Site.restore
  dsimp only
  generalize Site.modZone .. = y at w
  split
  · exact (Site.Minor.refl y).holds
  split
  case h_1 e =>
    split
    · exact ((y.beginPurge_minor z e).trans (Site.reportZone_minor _ z _)).holds
    · exact (Site.Minor.refl y).holds
  case h_2 e => exact y.leave_holds m z _ _ (.inl rfl) (by rw [e]; simp)
  all_goals exact (Site.Minor.refl y).holds

theorem Site.purgeExpiry_holds : x.Holds (x.purgeExpiry m z) := by
  unfold Site.purgeExpiry
  dsimp only
  split
  case h_1 d e _ =>
    have reached : x.Minor (x.onWorks fun w => w.onPlant fun p => p.reach d) := Site.minor_of_works rfl (fun _ => rfl) rfl
    have zone : (x.onWorks fun w => w.onPlant fun p => p.reach d).zone z = x.zone z := rfl
    exact reached.then_holds fun _ => Site.leave_holds m _ z _ _ (.inl rfl) (by rw [zone, e]; simp)
  case h_2 => exact (Site.Minor.refl x).holds

theorem Site.holdExpiry_minor : x.Minor (x.holdExpiry m) := by
  unfold Site.holdExpiry
  split
  · split
    · refine Site.Minor.trans ?_ (Site.closeTest_minor m _ none)
      exact Site.minor_of_works rfl (fun _ => rfl) rfl
    · exact .refl x
  · exact .refl x

/-- The site with zone `z` ACTIVE at origin FF with the next rank, before it takes its place in the fire order (R13). -/
def Site.takeFf (z : ZoneId) (x : Site) : Site :=
  { x with ic := x.ic.nextRank.modZone z fun r =>
      { r with state := .active, origin := some .ff, rank := some x.ic.nextRank.rank, purge := none } }

/-- All that EXTRACT can do (R13). -/
theorem Site.extract_cases :
    ((x.zone z).state = .active ∧ (x.zone z).origin = some .ff ∧ x.extract m z = x)
      ∨ (((x.zone z).state = .active ∨ (x.zone z).state = .restoring)
        ∧ ¬ ((x.zone z).state = .active ∧ (x.zone z).origin = some .ff)
        ∧ x.extract m z = ((x.takeFf z).move m z .ffExtract).afterOrder m x.ic.lead)
      ∨ ((x.zone z).state ≠ .active ∧ (x.zone z).state ≠ .restoring ∧ x.ic.fireOrder = []
        ∧ x.extract m z = (x.becomeActive m z .ff .ffExtract).startIncident m)
      ∨ ((x.zone z).state ≠ .active ∧ (x.zone z).state ≠ .restoring ∧ x.ic.fireOrder ≠ []
        ∧ x.extract m z = (x.becomeActive m z .ff .ffExtract).afterOrder m x.ic.lead) := by
  unfold Site.extract
  dsimp only
  cases e : (x.zone z).state with
  | active =>
    by_cases o : (x.zone z).origin = some .ff
    · exact .inl ⟨rfl, o, by simp [o]⟩
    · exact .inr (.inl ⟨.inl rfl, fun k => o k.2, if_neg fun k => o k.2⟩)
  | restoring => exact .inr (.inl ⟨.inr rfl, by simp, if_neg (by simp)⟩)
  | normal | heldOff | lockedOut | testing =>
    by_cases o : x.ic.fireOrder = []
    · exact .inr (.inr (.inl ⟨by simp, by simp, o, if_pos (by simp [o])⟩))
    · exact .inr (.inr (.inr ⟨by simp, by simp, o, if_neg (by simpa using o)⟩))

/-- EXTRACT of a zone that is executing and not already of origin FF: the next rank and the origin, and its place (R13). -/
theorem Site.takeFf_move_keeps (hs : (x.zone z).state = .active ∨ (x.zone z).state = .restoring) :
    x.Keeps ((x.takeFf z).move m z c) := by
  intro h
  have fire : (x.ic.zone z).state.inFire = true := by
    obtain e | e := hs <;> rw [show x.ic.zone z = x.zone z from rfl, e] <;> rfl
  refine x.move_keeps m z c (x.ic.enlist_keeps z .ff (h.sound.not_locked ((h.sound.each z).order.mpr fire)))
    (fun a e => x.ic.enlist_spares a z .ff e) ?_ ?_ h <;>
    rw [Incident.modZone_zone_same] <;> obtain e | e := hs <;> simp [e, ZoneState.executes]

theorem Site.extract_holds (hn : x.Whole → (x.zone z).state ≠ .testing) : x.Holds (x.extract m z) := by
  intro c
  have ht := hn (x.consistent_iff.mp c).1
  revert c
  obtain ⟨-, -, e⟩ | ⟨hs, -, e⟩ | ⟨-, -, ho, e⟩ | ⟨-, -, -, e⟩ := x.extract_cases m z <;> rw [e]
  · exact (Site.Minor.refl x).holds
  · exact Site.Keeps.afterOrder_holds m (x.takeFf_move_keeps m z _ hs)
  · exact x.startsIncident_holds m z _ .ff ht ho
  · exact Site.Keeps.afterOrder_holds m fun w => x.becomeActive_keeps m z _ _ (w.not_tested ht) w

theorem Site.holdOff_holds (hn : x.Whole → (x.zone z).state ≠ .testing) : x.Holds (x.holdOff m z) := by
  intro c
  unfold Site.holdOff
  split
  · exact (Site.Minor.refl x).holds c
  · exact x.leave_holds m z _ _ (.inr rfl) (hn (x.consistent_iff.mp c).1) c

/-- The site with an ACTIVE zone `z` handed back to its alarms, its purge begun where it has none, before it takes its place in
the fire order (R15). -/
def Site.surrender (z : ZoneId) (x : Site) : Site :=
  (if (x.zone z).holders.isEmpty then x.beginPurge z else x).modZone z fun r => { r with origin := some .alarm }

/-- All that AUTO can do (R15). -/
theorem Site.handBack_cases :
    ((x.zone z).state = .heldOff ∧ (x.zone z).holders.isEmpty = true
        ∧ x.handBack m z = (x.modZone z fun r => { r with state := .normal }).reportZone z .ffAuto)
      ∨ ((x.zone z).state = .heldOff ∧ (x.zone z).holders.isEmpty = false ∧ x.handBack m z = x.takeIn m z .ffAuto)
      ∨ ((x.zone z).state = .active ∧ (x.zone z).origin = some .ff
        ∧ x.handBack m z = ((x.surrender z).move m z .ffAuto).afterOrder m x.ic.lead)
      ∨ ((x.zone z).state ≠ .heldOff ∧ ¬ ((x.zone z).state = .active ∧ (x.zone z).origin = some .ff)
        ∧ x.handBack m z = x) := by
  unfold Site.handBack
  dsimp only
  cases e : (x.zone z).state with
  | heldOff =>
    cases h : (x.zone z).holders.isEmpty
    · exact .inr (.inl ⟨rfl, rfl, by simp⟩)
    · exact .inl ⟨rfl, rfl, by simp⟩
  | active =>
    by_cases o : (x.zone z).origin = some .ff
    · exact .inr (.inr (.inl ⟨rfl, o, if_pos o⟩))
    · exact .inr (.inr (.inr ⟨by simp, fun k => o k.2, if_neg o⟩))
  | normal | lockedOut | restoring | testing => exact .inr (.inr (.inr ⟨by simp, by simp, rfl⟩))

/-- A zone of origin FF takes origin ALARM and the place that it gives (R15). -/
theorem Site.surrender_move_keeps (hs : (x.zone z).state = .active) : x.Keeps ((x.surrender z).move m z c) := by
  have purging : x.Minor (if (x.zone z).holders.isEmpty then x.beginPurge z else x) := by
    split
    · exact x.beginPurge_minor z hs
    · exact .refl x
  have fire : ((if (x.zone z).holders.isEmpty then x.beginPurge z else x).zone z).state.inFire = true := by
    split
    · simp [Site.beginPurge, ZoneState.inFire]
    · rw [hs]; rfl
  refine purging.keeps.trans fun h => ?_
  unfold Site.surrender
  generalize (if (x.zone z).holders.isEmpty then x.beginPurge z else x) = y at fire h
  refine y.move_keeps m z c (ic := y.ic.modZone z fun r => { r with origin := some .alarm })
    (y.ic.reorigin_keeps z .alarm ((h.sound.each z).order.mpr fire)) (fun a e => y.ic.reorigin_spares z .alarm a e) ?_ ?_ h <;>
    rw [Incident.modZone_zone_same]
  · rfl
  · rfl

theorem Site.handBack_holds : x.Holds (x.handBack m z) := by
  obtain ⟨hs, -, e⟩ | ⟨hs, -, e⟩ | ⟨hs, -, e⟩ | ⟨-, -, e⟩ := x.handBack_cases m z <;> rw [e]
  · refine Site.Minor.holds (.trans (x.modZone_minor z _ ?_ ?_ ?_ rfl rfl fun k => ?_) (Site.reportZone_minor _ z _))
    · simp [hs, ZoneState.inFire]
    · simp [hs]
    · simp [hs]
    · have := k.purge_eq_none (by rw [show x.ic.zone z = x.zone z from rfl, hs]; simp)
      simp [show (x.zone z).purge = none from this]
  · exact x.takeIn_holds m z _ (.inr hs)
  · exact Site.Keeps.afterOrder_holds m (x.surrender_move_keeps m z _ hs)
  · exact (Site.Minor.refl x).holds

theorem Site.setMode_holds (mode : ZoneMode) : x.Holds (x.setMode m z mode) := by
  refine Site.Minor.then_holds ((x.abortTest_minor m .ff).trans (Site.modZone_minor_of_same _ z
    (fun r => { r with ffMode := mode }) rfl rfl rfl rfl)) fun w => ?_
  have none := w.no_testing (x.abortTest_test m .ff) z
  cases mode with
  | extract => exact Site.extract_holds m _ z fun _ => none
  | off => exact Site.holdOff_holds m _ z fun _ => none
  | auto => exact Site.handBack_holds m _ z

end

end Sys2Proof.Machine
end


section
/-!
SUPPORT. What a command can bring to the site: at most one operation of the Incident Controller or the Test Sequencer, on a site
whose zone table, lists, executions and test are those before the command.
-/

namespace Sys2Proof.Machine

/-! ### Operations on the site -/

/-- The operations that a command can bring to the site `x`. -/
inductive Site.Act (m : Pmc) (x : Site) : Site → Prop
  | nothing : Site.Act m x x
  | alarm (l : Line) (z : ZoneId) : Site.Act m x (x.alarm m l z)
  | restore (l : Line) (z : ZoneId) : Site.Act m x (x.restore m l z)
  | setMode (z : ZoneId) (mode : ZoneMode) : Site.Act m x (x.setMode m z mode)
  | purgeExpiry (z : ZoneId) : Site.Act m x (x.purgeExpiry m z)
  | holdExpiry : Site.Act m x (x.holdExpiry m)
  | abortTest (c : AbortCause) : Site.Act m x (x.abortTest m c)
  | startTest (z : ZoneId) (hold : Nat) (ht : x.works.ts.test = none) (hs : (x.zone z).state = .normal) :
      Site.Act m x (x.startTest m z hold)

theorem Site.Act.holds {m : Pmc} {x y : Site} (h : Site.Act m x y) : x.Holds y := by
  cases h with
  | nothing => exact (Site.Minor.refl x).holds
  | alarm l z => exact x.alarm_holds m z l
  | restore l z => exact x.restore_holds m z l
  | setMode z mode => exact x.setMode_holds m z mode
  | purgeExpiry z => exact x.purgeExpiry_holds m z
  | holdExpiry => exact (x.holdExpiry_minor m).holds
  | abortTest c => exact (x.abortTest_minor m c).holds
  | startTest z hold ht hs => exact (x.startTest_minor m z hold ht hs).holds

/-- From `x` to `y` the Incident Controller's tables stand, and no execution and no test begins or ends. -/
structure Site.Calm (x y : Site) : Prop where
  ic : y.ic = x.ic
  ctx : ∀ z, (y.works.ctx z).isSome = (x.works.ctx z).isSome
  test : y.works.ts.test.map Test.zone = x.works.ts.test.map Test.zone

theorem Site.Calm.refl (x : Site) : x.Calm x := ⟨rfl, fun _ => rfl, rfl⟩

theorem Site.Calm.trans {x y z : Site} (h : x.Calm y) (i : y.Calm z) : x.Calm z :=
  ⟨i.ic.trans h.ic, fun a => (i.ctx a).trans (h.ctx a), i.test.trans h.test⟩

theorem Site.Calm.minor {x y : Site} (h : x.Calm y) : x.Minor y := Site.minor_of_works h.ic h.ctx h.test

theorem Works.Evolves.calm {x : Site} {v : Works} (h : Works.Evolves x.works v) : x.Calm { x with works := v } :=
  ⟨rfl, fun z => (h.follows z).isSome, h.test⟩

theorem Works.Steps.calm {x : Site} {z : ZoneId} {v : Works} (h : Works.Steps z x.works v) :
    x.Calm { x with works := v } := by
  refine ⟨rfl, fun y => ?_, h.test⟩
  by_cases e : y = z
  · subst e
    change (v.ctx y).isSome = (x.works.ctx y).isSome
    cases hc : x.works.ctx y with
    | none => rw [h.idle hc]
    | some c =>
      obtain ⟨k, hk, -⟩ := h.goesOn c hc
      rw [hk]; rfl
  · exact (h.follows e).isSome

/-! ### Commands -/

/-- From `s` to `t` the mode stands and at most one operation has come to the site. -/
def State.Brings (s t : State) : Prop := t.mode = s.mode ∧ ∃ m x, s.site.Calm x ∧ Site.Act m x t.site

theorem State.Brings.of_calm {s t : State} (hm : t.mode = s.mode) (hs : s.site.Calm t.site) : s.Brings t :=
  ⟨hm, s.pmc, t.site, hs, .nothing⟩

theorem State.Brings.of_same {s t : State} (hm : t.mode = s.mode) (hs : t.site = s.site) : s.Brings t :=
  .of_calm hm (hs ▸ .refl _)

theorem State.Brings.refl (s : State) : s.Brings s := .of_same rfl rfl

theorem State.Brings.after {s t u : State} (hm : t.mode = s.mode) (hs : s.site.Calm t.site) (h : t.Brings u) :
    s.Brings u := by
  obtain ⟨hu, m, x, hx, act⟩ := h
  exact ⟨hu.trans hm, m, x, hs.trans hx, act⟩

theorem State.Brings.answered {s t u : State} (h : s.Brings t) (hm : u.mode = t.mode) (hs : u.site = t.site) :
    s.Brings u :=
  ⟨hm.trans h.1, hs ▸ h.2⟩

/-- The site is consistent wherever a command has brought it. -/
theorem State.Brings.holds {s t : State} (h : s.Brings t) : s.site.Holds t.site := by
  obtain ⟨-, m, x, calm, act⟩ := h
  exact calm.minor.then_holds fun _ => act.holds

section
variable (s : State) (p : Port)

theorem State.supervise_calm : s.site.Calm (s.supervise p).site :=
  ⟨s.supervise_ic p, fun z => by rw [Works.ctx, s.supervise_px p]; rfl, by rw [s.supervise_ts p]⟩

theorem State.onSite_brings (g : Pmc → Site → Site) (h : Site.Act s.pmc s.site (g s.pmc s.site)) : s.Brings (s.onSite g) :=
  ⟨s.onSite_mode g, s.pmc, s.site, .refl _, by rw [State.onSite_site]; exact h⟩

theorem State.onWorks_brings (g : Pmc → List ZoneId → Works → Works)
    (h : s.site.Calm { s.site with works := g s.pmc s.site.ic.fireOrder s.site.works }) : s.Brings (s.onWorks g) :=
  .of_calm rfl h

theorem State.onWorks_site (g : Pmc → List ZoneId → Works → Works) :
    (s.onWorks g).site = { s.site with works := g s.pmc s.site.ic.fireOrder s.site.works } := rfl

theorem State.onPlantOnly_calm (g : Plant → Plant) : s.site.Calm (s.onWorksOnly fun w => w.onPlant g).site :=
  ⟨rfl, fun _ => rfl, rfl⟩

theorem State.onPlant_brings (g : Plant → Plant) : s.Brings (s.onPlant g) :=
  s.onWorks_brings _ <| .trans (y := { s.site with works := s.site.works.onPlant g }) ⟨rfl, fun _ => rfl, rfl⟩
    (Works.settle_evolves ..).calm

theorem State.whenRunning_brings (g : State → State) (h : s.Brings (g s)) : s.Brings (s.whenRunning g) := by
  unfold State.whenRunning
  split
  · exact h
  · exact .refl s

end

/-- An owner that brings at most one operation to the site. -/
def Mild (o : Owner) : Prop := ∀ s : State, s.Brings (o s).1

section
variable {α : Type} {o : Owner} (e : Reason)

theorem mild_of_same (hm : ∀ s, (o s).1.mode = s.mode) (hs : ∀ s, (o s).1.site = s.site) : Mild o := fun s =>
  .of_same (hm s) (hs s)

theorem mild_refuse : Mild (refuse e) := mild_of_same (fun _ => rfl) fun _ => rfl

theorem mild_withFields {b : Body α} {k : α → Owner} (h : ∀ a, Mild (k a)) : Mild (withFields b k) := by
  cases b with
  | fields a => exact h a
  | malformed => exact mild_refuse _

theorem mild_withId {a : Option α} {k : α → Owner} (h : ∀ a, Mild (k a)) : Mild (withId a k) := by
  cases a with
  | some a => exact h a
  | none => exact mild_refuse _

theorem mild_require (ok : State → Bool) (h : ∀ s, ok s = true → s.Brings (o s).1) : Mild (require ok e o) := by
  intro s
  obtain ⟨c, k⟩ | ⟨-, k⟩ := require_cases s ok e o <;> rw [k]
  · exact h s c
  · exact .refl s

theorem mild_unbroken (b : Option BlockId) (h : Mild o) : Mild (unbroken b o) := by
  intro s
  unfold unbroken
  split
  · split
    · exact h s
    · exact .of_same rfl rfl
  · exact h s

theorem mild_whenIdle (h : Mild o) : Mild (whenIdle o) := mild_require _ _ fun s _ => h s
theorem mild_whenCleared (h : Mild o) : Mild (whenCleared o) := mild_require _ _ fun s _ => h s
theorem mild_whenCommissioning (h : Mild o) : Mild (whenCommissioning o) := mild_require _ _ fun s _ => h s
theorem mild_whenNoFire (h : Mild o) : Mild (whenNoFire o) := mild_require _ _ fun s _ => h s
theorem mild_whenNotBusy (h : Mild o) : Mild (whenNotBusy o) := mild_require _ _ fun s _ => h s

theorem State.serve_brings (s : State) (p : Port) (permitted : Port → Bool) (h : Mild o) :
    s.Brings (s.serve permitted o p) := by
  have calm := s.supervise_calm p
  obtain ⟨-, k⟩ | ⟨-, -, k⟩ | ⟨-, -, k⟩ := s.serve_cases p permitted o <;> rw [k]
  · exact .refl s
  · exact .of_calm (by simp) calm
  · exact .after (s.supervise_mode p) calm ((h _).answered rfl rfl)

end

/-! ### The owners of the requests -/

theorem mild_settingAsked (b : Body SettingArgs) {k : ActId → Asked → Owner} (h : ∀ a q, Mild (k a q)) :
    Mild (settingAsked b k) := by
  refine mild_withFields fun x => mild_withId fun a s => ?_
  split
  · exact h _ _ s
  · exact .refl s

theorem mild_clearFaultOwner (b : Body Nat) : Mild (clearFaultOwner b) := by
  refine mild_withFields fun n => mild_withId fun a s => ?_
  split
  · exact .refl s
  · exact s.onPlant_brings _
  · exact s.onPlant_brings _

theorem mild_reported (p : Port) (b : Body Nat) {act : Line → ZoneId → Owner} (h : ∀ l z, Mild (act l z)) :
    Mild (reported p b act) := by
  refine mild_withFields fun n => mild_withId fun z => mild_require _ _ fun s _ => ?_
  cases p with
  | alarm l => exact mild_require _ _ (fun s _ => h l z s) s
  | ff | bl => exact mild_refuse _ s

theorem mild_setZoneModeOwner (b : Body ZoneModeArgs) : Mild (setZoneModeOwner b) :=
  mild_withFields fun x => mild_withId fun z => mild_require _ _ fun s _ =>
    s.onSite_brings (fun m y => y.setMode m z x.mode) (.setMode z x.mode)

/-- TEST ZONE begins a test only where none runs, of a NORMAL zone (R118). -/
theorem mild_testZoneOwner (b : Body TestArgs) : Mild (testZoneOwner b) := by
  refine mild_withFields fun x => mild_withId fun z => mild_require _ _ fun s _ => mild_require _ _ (fun s _ => ?_) s
  obtain ⟨tested, k⟩ | ⟨-, k⟩ := require_cases s (fun s => !s.testRunning) .testRunning _ <;> rw [k]
  swap
  · exact .refl s
  obtain ⟨normal, k⟩ | ⟨-, k⟩ := require_cases s
    (fun s => (s.site.ic.config z).testPermitted && (s.site.zone z).state == .normal) .notPermitted _ <;> rw [k]
  swap
  · exact .refl s
  obtain ⟨-, k⟩ | ⟨-, k⟩ := require_cases s (fun s => s.ownPlanValid z) .noPlan _ <;> rw [k]
  swap
  · exact .refl s
  obtain ⟨-, k⟩ | ⟨-, k⟩ := require_cases s (fun s => s.pmc.ctrl == .ready) .planMemoryBusy _ <;> rw [k]
  swap
  · exact .refl s
  refine s.onSite_brings (fun m y => y.startTest m z (heldFor x.hold)) (.startTest z _ ?_ ?_)
  · simpa [State.testRunning] using tested
  · simpa using (Bool.and_eq_true_iff.mp normal).2

theorem mild_abortTestOwner (b : Body Unit) : Mild (abortTestOwner b) :=
  mild_withFields fun _ => mild_require _ _ fun s _ => s.onSite_brings (fun m x => x.abortTest m .abortTest) (.abortTest _)

theorem mild_restartOwner (b : Body Unit) : Mild (restartOwner b) :=
  mild_withFields fun _ => mild_require _ _ fun s _ => mild_require _ _ (fun s _ => mild_require _ _ (fun _ _ =>
    .of_same rfl rfl) s) s

theorem mild_eraseSetupOwner (b : Body Nat) : Mild (eraseSetupOwner b) :=
  mild_withFields fun _ => mild_withId fun _ => mild_unbroken _ <| mild_whenIdle <| mild_whenCleared <|
    mild_whenCommissioning <| mild_of_same (fun _ => rfl) fun _ => rfl

theorem mild_eraseConfirmOwner (b : Body Nat) : Mild (eraseConfirmOwner b) := by
  refine mild_withFields fun _ => mild_withId fun b => mild_unbroken _ fun s => ?_
  dsimp only
  refine .after (t := if (s.pmc.ctrl == .eraseSetup b) = true then s.onPmc fun m => m.setCtrl .ready else s) ?_ ?_
    ((mild_whenIdle <| mild_whenCleared <| mild_whenCommissioning fun s => ?_) _)
  · split <;> rfl
  · split <;> exact .refl _
  · split
    · exact .of_same rfl rfl
    · split
      · exact .of_same rfl rfl
      · split <;> exact .of_same rfl rfl

theorem mild_writeRecordOwner (b : Body WriteArgs) : Mild (writeRecordOwner b) :=
  mild_withFields fun _ => mild_withId fun _ => mild_withId fun _ => mild_unbroken _ <| mild_whenIdle <| mild_whenCleared <|
    mild_whenCommissioning <| mild_whenNoFire fun s => by
      split <;> exact .of_same rfl rfl

theorem mild_commitOwner (b : Body Nat) : Mild (commitOwner b) :=
  mild_withFields fun _ => mild_withId fun _ => mild_unbroken _ <| mild_whenIdle <| mild_whenCleared <|
    mild_whenCommissioning <| mild_whenNoFire fun s => by
      split
      · exact .of_same rfl rfl
      · split
        · exact .of_same rfl rfl
        · split <;> exact .of_same rfl rfl

theorem mild_suspendOwner (b : Body Unit) : Mild (suspendOwner b) :=
  mild_withFields fun _ => mild_unbroken _ fun s => by
    split <;> exact .of_same rfl rfl

theorem mild_resumeOwner (b : Body Unit) : Mild (resumeOwner b) :=
  mild_withFields fun _ => mild_unbroken _ fun s => by
    split
    · refine (mild_whenNoFire <| mild_whenCommissioning fun s => ?_) s
      split <;> exact .of_same rfl rfl
    · exact .refl s

theorem mild_lockOwner (b : Body Nat) : Mild (lockOwner b) :=
  mild_withFields fun _ => mild_withId fun _ => mild_unbroken _ <| mild_whenNotBusy <|
    mild_of_same (fun _ => rfl) fun _ => rfl

theorem mild_lockDownOwner (b : Body Nat) : Mild (lockDownOwner b) :=
  mild_withFields fun _ => mild_withId fun _ => mild_unbroken _ <| mild_whenNotBusy <|
    mild_of_same (fun _ => rfl) fun _ => rfl

theorem mild_unlockOwner (b : Body Nat) : Mild (unlockOwner b) :=
  mild_withFields fun _ => mild_withId fun _ => mild_unbroken _ <| mild_whenCommissioning <| mild_whenNotBusy fun s => by
    split <;> exact .of_same rfl rfl

theorem mild_readRecordOwner (b : Body PositionArgs) : Mild (readRecordOwner b) :=
  mild_withFields fun _ => mild_withId fun _ => mild_withId fun _ => mild_require _ _ fun s _ => .refl s

theorem mild_readReportsOwner (p : Port) (b : Body Nat) : Mild (readReportsOwner p b) := by
  refine mild_withFields fun n s => ?_
  split
  · split
    · exact .of_calm rfl (s.onPlantOnly_calm _)
    · exact .refl s
  · exact .refl s

theorem mild_zoneTableOwner (b : Body ZoneReadArgs) : Mild (zoneTableOwner b) := by
  refine mild_withFields fun x => ?_
  cases x with
  | range first count => exact mild_withId fun _ s => .refl s
  | step n k =>
    refine mild_withId fun z s => ?_
    split <;> exact .refl s

theorem mild_actuatorTableOwner (b : Body RangeArgs) : Mild (actuatorTableOwner b) :=
  mild_withFields fun _ => mild_withId fun _ s => .refl s

/-- A read's owner leaves the state alone. -/
theorem mild_read {α : Type} (b : Body α) (f : α → State → Answer) : Mild (withFields b fun a s => (s, f a s)) :=
  mild_withFields fun _ s => .refl s

/-! ### Every command -/

/-- A request command brings at most one operation to the site. -/
theorem execRequest_brings (i : Instr) (s : State) : ∃ t, execRequest i s = .next t ∧ s.Brings t := by
  cases i with
  | poll p b => exact ⟨_, rfl, s.serve_brings p _ (mild_withFields fun _ s => .of_same rfl rfl)⟩
  | ackRestart p b => exact ⟨_, rfl, s.serve_brings p _ (mild_withFields fun _ s => .of_same rfl rfl)⟩
  | alarm p b => exact ⟨_, rfl, s.serve_brings p _ (mild_reported p b fun l z s => s.onSite_brings _ (.alarm l z))⟩
  | restore p b => exact ⟨_, rfl, s.serve_brings p _ (mild_reported p b fun l z s => s.onSite_brings _ (.restore l z))⟩
  | setZoneMode p b => exact ⟨_, rfl, s.serve_brings p _ (mild_setZoneModeOwner b)⟩
  | setOverride p b =>
    exact ⟨_, rfl, s.serve_brings p _ (mild_settingAsked b fun a q s => s.onPlant_brings _)⟩
  | clearFault p b => exact ⟨_, rfl, s.serve_brings p _ (mild_clearFaultOwner b)⟩
  | setNormal p b =>
    exact ⟨_, rfl, s.serve_brings p _ (mild_settingAsked b fun a q => mild_require _ _ fun s _ => s.onPlant_brings _)⟩
  | testZone p b => exact ⟨_, rfl, s.serve_brings p _ (mild_testZoneOwner b)⟩
  | abortTest p b => exact ⟨_, rfl, s.serve_brings p _ (mild_abortTestOwner b)⟩
  | restartController p b => exact ⟨_, rfl, s.serve_brings p _ (mild_restartOwner b)⟩
  | eraseSetup p b => exact ⟨_, rfl, s.serve_brings p _ (mild_eraseSetupOwner b)⟩
  | eraseConfirm p b => exact ⟨_, rfl, s.serve_brings p _ (mild_eraseConfirmOwner b)⟩
  | writeRecord p b => exact ⟨_, rfl, s.serve_brings p _ (mild_writeRecordOwner b)⟩
  | commit p b => exact ⟨_, rfl, s.serve_brings p _ (mild_commitOwner b)⟩
  | suspend p b => exact ⟨_, rfl, s.serve_brings p _ (mild_suspendOwner b)⟩
  | resume p b => exact ⟨_, rfl, s.serve_brings p _ (mild_resumeOwner b)⟩
  | lock p b => exact ⟨_, rfl, s.serve_brings p _ (mild_lockOwner b)⟩
  | lockDown p b => exact ⟨_, rfl, s.serve_brings p _ (mild_lockDownOwner b)⟩
  | unlock p b => exact ⟨_, rfl, s.serve_brings p _ (mild_unlockOwner b)⟩
  | readRecord p b => exact ⟨_, rfl, s.serve_brings p _ (mild_readRecordOwner b)⟩
  | readBlockStates p b => exact ⟨_, rfl, s.serve_brings p _ (mild_read b _)⟩
  | planStatus p b => exact ⟨_, rfl, s.serve_brings p _ (mild_read b _)⟩
  | clearPlanStatus p b => exact ⟨_, rfl, s.serve_brings p _ (mild_withFields fun _ s => .of_same rfl rfl)⟩
  | queryGeometry p b => exact ⟨_, rfl, s.serve_brings p _ (mild_read b _)⟩
  | readReports p b => exact ⟨_, rfl, s.serve_brings p _ (mild_readReportsOwner p b)⟩
  | zoneTableRead p b => exact ⟨_, rfl, s.serve_brings p _ (mild_zoneTableOwner b)⟩
  | actuatorTableRead p b => exact ⟨_, rfl, s.serve_brings p _ (mild_actuatorTableOwner b)⟩
  | groupTableRead p b => exact ⟨_, rfl, s.serve_brings p _ (mild_withFields fun _ => mild_withId fun _ s => .refl s)⟩
  | startQueueRead p b => exact ⟨_, rfl, s.serve_brings p _ (mild_read b _)⟩
  | testRecordRead p b => exact ⟨_, rfl, s.serve_brings p _ (mild_withFields fun _ => mild_withId fun _ s => .refl s)⟩
  | linkTableRead p b => exact ⟨_, rfl, s.serve_brings p _ (mild_read b _)⟩
  | unknownRequestCode p c => exact ⟨_, rfl, s.serve_brings p _ (mild_refuse _)⟩
  | _ => exact ⟨s, rfl, .refl s⟩

theorem execCrcFailure_brings (p : Port) (s : State) : ∃ t, execCrcFailure p s = .next t ∧ s.Brings t := by
  refine ⟨_, rfl, ?_⟩
  split <;> exact .of_same rfl rfl

theorem State.received_brings (s : State) (p : Port) (x : Received) : ∃ t, s.received p x = .next t ∧ s.Brings t := by
  unfold State.received
  split
  · exact ⟨_, rfl, .of_same rfl rfl⟩
  · exact ⟨_, rfl, .of_same rfl rfl⟩
  · exact execCrcFailure_brings p s
  · split
    · exact execRequest_brings _ s
    · exact ⟨_, rfl, .of_same rfl rfl⟩

theorem execByteArriving_brings (p : Port) (b : Byte) (stopBit : Bool) (s : State) :
    ∃ t, execByteArriving p b stopBit s = .next t ∧ s.Brings t := by
  unfold execByteArriving
  split
  · split
    · exact s.received_brings p _
    · exact s.received_brings p _
    · exact ⟨s, rfl, .refl s⟩
  · exact ⟨s, rfl, .refl s⟩

section
variable (s : State)

theorem State.endOp_brings (k : OpKind) (b : BlockId) (d : Nat) (g : Pmc → Pmc) : s.Brings (s.endOp k b d g) :=
  .of_calm rfl ⟨rfl, fun _ => rfl, rfl⟩

theorem State.gapExpiry_brings (p : Port) : s.Brings (s.gapExpiry p) := by
  unfold State.gapExpiry
  split
  · exact .of_calm rfl (s.onPlantOnly_calm _)
  · exact .refl s

theorem State.silenced_brings (p : Port) : s.Brings (s.silenced p) := by
  unfold State.silenced
  split
  · exact .refl s
  · exact .refl s
  · refine .after (t := s.onWorks Works.withdrawNormals) (s.onWorks_mode _) ?_ (State.onSite_brings _ _ (.abortTest _))
    rw [State.onWorks_site]
    exact (Works.withdrawNormals_evolves ..).calm

theorem State.windowExpiry_brings (p : Port) : s.Brings (s.windowExpiry p) := by
  unfold State.windowExpiry
  dsimp only
  split
  · refine .after ?_ ?_ (State.silenced_brings _ p)
    · rfl
    · exact ⟨rfl, fun _ => rfl, rfl⟩
  · exact .refl s

theorem State.onInput_brings (g h : Plant → Plant) : s.Brings (s.onInput g h) := by
  unfold State.onInput
  split
  · exact s.onPlant_brings g
  · exact .of_calm rfl (s.onPlantOnly_calm h)

/-- The expiry of a dwell timer ends a step of its zone at most (R35). -/
theorem Works.dwellExpiry_calm (m : Pmc) (z : ZoneId) (x : Site) :
    x.Calm { x with works := x.works.dwellExpiry m x.ic.fireOrder z } := by
  unfold Works.dwellExpiry
  split
  · split
    · rename_i d _
      refine .trans (y := { x with works := (x.works.onPlant fun p => p.reach d).modCtx z fun c => { c with dwell := .expired } })
        ?_ ((Works.judge_evolves ..).trans (Works.settle_evolves ..)).calm
      have reached : x.Calm { x with works := x.works.onPlant fun p => p.reach d } := ⟨rfl, fun _ => rfl, rfl⟩
      refine reached.trans (Works.Steps.calm (z := z) ?_)
      exact Works.modCtx_steps z _ _ fun c _ => ⟨rfl, rfl, le_rfl, List.prefix_rfl, fun _ h => h⟩
    · exact .refl x
  · exact .refl x

theorem Works.stepTimeoutExpiry_calm (m : Pmc) (z : ZoneId) (x : Site) :
    x.Calm { x with works := x.works.stepTimeoutExpiry m x.ic.fireOrder z } := by
  unfold Works.stepTimeoutExpiry
  split
  · split
    · rename_i d _
      have reached : x.Calm { x with works := x.works.onPlant fun p => p.reach d } := ⟨rfl, fun _ => rfl, rfl⟩
      exact (reached.trans (Works.endIncomplete_steps m x.ic.fireOrder z _).calm).trans (Works.settle_evolves ..).calm
    · exact .refl x
  · exact .refl x

/-- While the 6408 runs a command brings at most one operation to the site, or it is a reset, which leaves the Incident
Controller's tables to the start-up operation. -/
theorem exec_brings (i : Instr) (hr : s.mode = .running) :
    ∃ t, exec i s = .next t ∧ (s.Brings t ∨ t.site.ic = s.site.ic ∧ t.mode ≠ .running) := by
  have reset (kind : StartKind) (t : State) (h : t.site.ic = s.site.ic) :
      (t.beginStartUp kind).site.ic = s.site.ic ∧ (t.beginStartUp kind).mode ≠ .running :=
    ⟨h, by simp [State.beginStartUp]⟩
  have expires (g : State → State) (h : s.Brings (g s)) :
      s.Brings (s.whenRunning g) ∨ (s.whenRunning g).site.ic = s.site.ic ∧ (s.whenRunning g).mode ≠ .running :=
    .inl (s.whenRunning_brings g h)
  have request (i : Instr) (same : exec i s = execRequest i s) :
      ∃ t, exec i s = .next t ∧ (s.Brings t ∨ t.site.ic = s.site.ic ∧ t.mode ≠ .running) := by
    obtain ⟨t, e, h⟩ := execRequest_brings i s
    exact ⟨t, same.trans e, .inl h⟩
  cases i with
  | crcFailure p =>
    obtain ⟨t, e, h⟩ := execCrcFailure_brings p s
    exact ⟨t, e, .inl h⟩
  | byteArriving p b stopBit =>
    obtain ⟨t, e, h⟩ := execByteArriving_brings p b stopBit s
    exact ⟨t, e, .inl h⟩
  | gapExpiry p => exact ⟨_, rfl, expires _ (s.gapExpiry_brings p)⟩
  | replySent p =>
    refine ⟨_, rfl, ?_⟩
    unfold State.whenRunning State.replySent
    split
    · split
      · dsimp only
        split
        · exact .inr (reset _ _ rfl)
        · exact .inl (.of_same rfl rfl)
      · exact .inl (.refl s)
    · exact .inl (.refl s)
  | supervisionWindowExpiry p => exact ⟨_, rfl, expires _ (s.windowExpiry_brings p)⟩
  | purgeExpiry z => exact ⟨_, rfl, expires _ (s.onSite_brings _ (.purgeExpiry z))⟩
  | dwellExpiry z => exact ⟨_, rfl, expires _ (s.onWorks_brings _ (Works.dwellExpiry_calm s.pmc z s.site))⟩
  | stepTimeoutExpiry z => exact ⟨_, rfl, expires _ (s.onWorks_brings _ (Works.stepTimeoutExpiry_calm s.pmc z s.site))⟩
  | holdExpiry => exact ⟨_, rfl, expires _ (s.onSite_brings _ .holdExpiry)⟩
  | travelTimerExpiry a => exact ⟨_, rfl, expires _ (s.onPlant_brings _)⟩
  | proofTimerExpiry a => exact ⟨_, rfl, expires _ (s.onPlant_brings _)⟩
  | runDownExpiry a => exact ⟨_, rfl, expires _ (s.onPlant_brings _)⟩
  | staggerExpiry => exact ⟨_, rfl, expires _ (s.onPlant_brings _)⟩
  | slewUpdate => exact ⟨_, rfl, expires _ (s.onPlant_brings _)⟩
  | eraseCompletion v =>
    refine ⟨_, rfl, expires _ ?_⟩
    split
    · exact s.endOp_brings ..
    · exact .refl s
  | writeCompletion =>
    refine ⟨_, rfl, expires _ ?_⟩
    split
    · exact s.endOp_brings ..
    · exact .refl s
  | commitCompletion =>
    refine ⟨_, rfl, expires _ ?_⟩
    split
    · exact s.endOp_brings ..
    · exact .refl s
  | switchChange a o c => exact ⟨_, rfl, .inl (s.onInput_brings _ _)⟩
  | proofArrives a => exact ⟨_, rfl, .inl (s.onInput_brings _ _)⟩
  | proofLost a => exact ⟨_, rfl, .inl (s.onInput_brings _ _)⟩
  | commissioningInputOff =>
    refine ⟨_, rfl, .inl ?_⟩
    split <;> exact .of_same rfl rfl
  | commissioningInputOn =>
    refine ⟨_, rfl, .inl ?_⟩
    split <;> exact .of_same rfl rfl
  | powerOnReset => exact ⟨_, rfl, .inr (reset _ s rfl)⟩
  | resetInputAsserted => exact ⟨_, rfl, .inr (reset _ s rfl)⟩
  | resetInputReleased =>
    refine ⟨_, rfl, .inl (.of_same ?_ ?_)⟩ <;> simp [State.resetReleased, hr]
  | startUpOperation =>
    refine ⟨s, ?_, .inl (.refl s)⟩
    simp [exec, execStartUpOperation, hr]
  | _ => exact request _ rfl

end

end Sys2Proof.Machine
end


section
/-!
SUPPORT. The zones across the start-up operation, and every step: O12.
-/

namespace Sys2Proof.Machine

/-! ### The start-up operation (R165) -/

/-- A site at rest is consistent and its fire order sorted (R23). -/
theorem Site.consistent_of_rest (x : Site) (ho : x.ic.fireOrder = []) (hl : x.ic.lockedOut = [])
    (hz : ∀ z, x.zone z = Zone.atRest) (hc : ∀ z, x.works.ctx z = none) (ht : x.works.ts.test = none) (hr : x.ic.rank = 0) :
    x.Consistent ∧ x.ic.Sorted := by
  have zone (z : ZoneId) : x.ic.zone z = Zone.atRest := hz z
  refine ⟨x.consistent_iff.mpr ⟨⟨⟨?_, ?_, ?_, fun z => ?_⟩, fun z => ?_⟩, fun _ => hl⟩, ?_⟩
  · rw [ho]; exact .nil
  · rw [hl]; exact .nil
  · rw [hr]; exact Nat.zero_le _
  · constructor <;> simp [ho, hl, zone, Zone.atRest, ZoneState.inFire]
  · constructor <;> simp [hz, hc, ht, Zone.atRest, ZoneState.executes]
  · unfold Incident.Sorted
    rw [ho]
    exact ⟨.nil, .nil⟩

/-- After the start-up operation no zone stands in either list, none executes and no test runs (R23). -/
theorem State.completeStartUp_consistent (kind : StartKind) (s : State) :
    (s.completeStartUp kind).site.Consistent ∧ (s.completeStartUp kind).site.ic.Sorted :=
  Site.consistent_of_rest _ rfl rfl (fun z => Table.look_all Zone.atRest z)
    (fun z => Table.look_all (none : Option Ctx) z) rfl rfl

section
variable (s : State) (hr : s.mode ≠ .running)
include hr

theorem State.not_running : s.isRunning = false := by simpa [State.isRunning] using hr

theorem State.serve_of_starting (permitted : Port → Bool) (o : Owner) (p : Port) : s.serve permitted o p = s :=
  s.serve_ignored p permitted o (by simp [State.taking, s.not_running hr])

theorem State.whenRunning_of_starting (g : State → State) : s.whenRunning g = s := by
  simp [State.whenRunning, s.not_running hr]

/-- During the start-up operation a request is not taken (R144). -/
theorem execRequest_of_starting (i : Instr) : execRequest i s = .next s := by
  have ignored (permitted : Port → Bool) (o : Owner) (p : Port) :
      (.next (s.serve permitted o p) : Host.Outcome State Fault Refusal) = .next s :=
    congrArg _ (s.serve_of_starting hr permitted o p)
  cases i with
  | crcFailure | gapExpiry | replySent | supervisionWindowExpiry | purgeExpiry | dwellExpiry | stepTimeoutExpiry | holdExpiry
  | travelTimerExpiry | proofTimerExpiry | runDownExpiry | staggerExpiry | slewUpdate | eraseCompletion | writeCompletion
  | commitCompletion | switchChange | proofArrives | proofLost | commissioningInputOff | commissioningInputOn | powerOnReset
  | resetInputAsserted | resetInputReleased | startUpOperation | byteArriving => rfl
  | _ => exact ignored _ _ _

/-- A command that brings the 6408 from its start-up operation to running is the operation's end, which leaves the zones
consistent and the fire order sorted. -/
theorem exec_of_starting (i : Instr) : ∃ t, exec i s = .next t
    ∧ (t.mode = .running → t.site.Consistent ∧ t.site.ic.Sorted) := by
  have stays (o : Host.Outcome State Fault Refusal) (t : State) (e : o = .next t) (h : t.mode ≠ .running) :
      ∃ t, o = .next t ∧ (t.mode = .running → t.site.Consistent ∧ t.site.ic.Sorted) := ⟨t, e, fun k => absurd k h⟩
  have request (i : Instr) (same : exec i s = execRequest i s) :=
    stays (exec i s) s (same.trans (execRequest_of_starting s hr i)) hr
  have event (g : State → State) := stays (.next (s.whenRunning g)) s (congrArg _ (s.whenRunning_of_starting hr g)) hr
  cases i with
  | crcFailure p => exact stays _ s (by simp [exec, execCrcFailure, State.taking, s.not_running hr]) hr
  | byteArriving p b stopBit => exact stays _ s (by simp [exec, execByteArriving, s.not_running hr]) hr
  | gapExpiry | replySent | supervisionWindowExpiry | purgeExpiry | dwellExpiry | stepTimeoutExpiry | holdExpiry
  | travelTimerExpiry | proofTimerExpiry | runDownExpiry | staggerExpiry | slewUpdate | eraseCompletion | writeCompletion
  | commitCompletion => exact event _
  | switchChange | proofArrives | proofLost =>
    refine stays _ _ rfl ?_
    simpa [State.onInput, s.not_running hr] using hr
  | commissioningInputOff | commissioningInputOn =>
    refine stays _ _ rfl ?_
    split <;> exact hr
  | powerOnReset | resetInputAsserted => exact stays _ _ rfl (by simp [State.beginStartUp])
  | resetInputReleased =>
    refine stays _ _ rfl ?_
    unfold State.resetReleased
    dsimp only
    split
    · simp
    · exact hr
  | startUpOperation =>
    refine ⟨_, rfl, ?_⟩
    split
    · exact fun _ => State.completeStartUp_consistent _ s
    · exact fun k => absurd k hr
  | _ => exact request _ rfl

end

/-! ### Every step -/

/-- The zones as O12 speaks of them: consistent while the 6408 runs and, where `sorted` asks it, in order. -/
def State.ZonesRight (sorted : Prop) (s : State) : Prop :=
  s.mode = .running → s.site.Consistent ∧ (sorted → s.site.ic.Sorted)

theorem exec_zonesRight (sorted : Prop) (i : Instr) (s t : State) (h : s.ZonesRight sorted) (e : exec i s = .next t) :
    t.ZonesRight sorted := by
  intro ht
  by_cases hr : s.mode = .running
  · obtain ⟨u, eu, brings⟩ := exec_brings s i hr
    rw [e, Host.Outcome.next.injEq] at eu
    subst eu
    obtain ⟨c, o⟩ := h hr
    obtain brings | ⟨-, k⟩ := brings
    · obtain ⟨ct, ot, -⟩ := brings.holds c
      exact ⟨ct, fun k => ot (o k)⟩
    · exact absurd ht k
  · obtain ⟨u, eu, hu⟩ := exec_of_starting s hr i
    rw [e, Host.Outcome.next.injEq] at eu
    subst eu
    exact ⟨(hu ht).1, fun _ => (hu ht).2⟩

theorem State.ZonesRight.of_calm {sorted : Prop} {s t : State} (h : s.ZonesRight sorted) (hm : t.mode = s.mode)
    (hs : s.site.Calm t.site) : t.ZonesRight sorted := by
  intro ht
  obtain ⟨c, o⟩ := h (hm ▸ ht)
  obtain ⟨ct, ot, -⟩ := hs.minor.holds c
  exact ⟨ct, fun k => ot (o k)⟩

theorem State.sample_mode (s : State) : s.sample.mode = s.mode := by unfold State.sample; dsimp only [State.onWorksOnly]

theorem State.sample_calm (s : State) : s.site.Calm s.sample.site := by
  have calm (x : Site) (t : Table ChanInputs 64) :
      x.Calm { x with works := { x.works with plant := { x.works.plant with inputs := t } } } := ⟨rfl, fun _ => rfl, rfl⟩
  unfold State.sample
  exact calm s.site _

/-- The sampling of the inputs leaves the mode, the zones and their executions (R66). -/
theorem State.samplePass_calm (s : State) : s.samplePass.mode = s.mode ∧ s.site.Calm s.samplePass.site := by
  unfold State.samplePass
  split
  · exact ⟨rfl, .refl _⟩
  · exact ⟨s.sample_mode, s.sample_calm⟩

/-- So does a millisecond of the Timebase. -/
theorem State.tick_calm (s : State) : s.tick.mode = s.mode ∧ s.site.Calm s.tick.site := by
  unfold State.tick
  dsimp only
  obtain ⟨hm, hs⟩ := State.samplePass_calm (if (s.now + 1) % slewInterval = 0 then
    { s.onWorksOnly (fun w => w.onPlant fun x => x.reach (s.now + 1)) with
      pending := (s.onWorksOnly fun w => w.onPlant fun x => x.reach (s.now + 1)).pending ++ [.slewUpdate] }
    else s.onWorksOnly fun w => w.onPlant fun x => x.reach (s.now + 1))
  refine ⟨hm.trans ?_, .trans ?_ hs⟩ <;> split
  · rfl
  · rfl
  · exact s.onPlantOnly_calm _
  · exact s.onPlantOnly_calm _

theorem idle_zonesRight (sorted : Prop) (s t : State) (h : s.ZonesRight sorted) (e : idle s = .next t) :
    t.ZonesRight sorted := by
  unfold idle at e
  split at e
  · split at e
    · exact exec_zonesRight sorted _ _ t (h.of_calm (t := { s with free := s.free + 1 }) rfl (.refl _)) e
    · obtain rfl := Host.Outcome.next.inj e
      exact h.of_calm s.tick_calm.1 s.tick_calm.2
  · rename_i kind held elapsed hs
    split at e
    · exact exec_zonesRight sorted _ _ t (h.of_calm (t := { s with free := s.free + 1 }) rfl (.refl _)) e
    · obtain rfl := Host.Outcome.next.inj e
      intro k
      rw [(State.samplePass_calm _).1] at k
      cases k

theorem step_zonesRight (sorted : Prop) (s t : State) (h : s.ZonesRight sorted) (e : step s = .next t) :
    t.ZonesRight sorted := by
  unfold step at e
  split at e
  · rename_i i rest _
    exact exec_zonesRight sorted i _ t (h.of_calm (t := { s with pending := rest }) rfl (.refl _)) e
  · exact idle_zonesRight sorted s t h e

/-- Settles O12: every step brings at most one operation to the site, and each of them keeps the agreement and the order. -/
theorem everyStepKeepsTheZonesConsistent : Obligations.EveryStepKeepsTheZonesConsistent := by
  refine ⟨fun s t h e ht => ?_, fun s t h o e ht => ?_⟩
  · exact (step_zonesRight False s t (fun hr => ⟨h hr, False.elim⟩) e ht).1
  · exact (step_zonesRight True s t (fun hr => ⟨h hr, fun _ => o hr⟩) e ht).2 trivial

end Sys2Proof.Machine
end


section
/-!
SUPPORT. The requests of the Incident Controller as commands: their checks, and the state and reply of an accepted one. O23.
-/

namespace Sys2Proof.Machine

theorem zoneOfNumber_eq_none {n : Nat} (h : n = 0 ∨ 48 < n) : zoneOfNumber n = none := dif_neg (by omega)

theorem State.reply_accepted (s : State) (p : Port) (fields : List Byte) : (s.reply p (.ok fields)).Accepted p :=
  ⟨s.statusFor p, fields, by rw [State.reply_ok]⟩

/-- A change of the site that leaves the fire order leaves plan memory alone. -/
theorem State.onSite_of_order (s : State) (f : Pmc → Site → Site) (h : (f s.pmc s.site).ic.fireOrder = s.site.ic.fireOrder) :
    s.onSite f = { s with site := f s.pmc s.site } := by
  unfold State.onSite
  dsimp only
  rw [h]
  split
  · simp_all
  · rfl

/-! ### The checks of ALARM and RESTORE (R8, R10) -/

section
variable (s : State) (l : Line) (n : Nat) (act : Line → ZoneId → Owner)

theorem reported_out_of_range (p : Port) (h : zoneOfNumber n = none) :
    reported p (.fields n) act s = (s, .error .badArgument) := by
  rw [reported, withFields_fields, h, withId_none]

variable {z : ZoneId} (hz : zoneOfNumber n = some z)
include hz

theorem reported_absent (h : (s.site.ic.config z).present = false) :
    reported (.alarm l) (.fields n) act s = (s, .error .zoneAbsent) := by
  rw [reported, withFields_fields, hz, withId_some, require_of_false s h]

theorem reported_notPermitted (hp : (s.site.ic.config z).present = true) (h : (s.site.ic.config z).permitted.has l = false) :
    reported (.alarm l) (.fields n) act s = (s, .error .zoneNotPermitted) := by
  rw [reported, withFields_fields, hz, withId_some, require_of_true s hp]
  exact require_of_false s h

theorem reported_passes (hp : (s.site.ic.config z).present = true) (h : (s.site.ic.config z).permitted.has l = true) :
    reported (.alarm l) (.fields n) act s = act l z s := by
  rw [reported, withFields_fields, hz, withId_some, require_of_true s hp]
  exact require_of_true s h

end

/-! ### The checks of SET ZONE MODE (R12) -/

section
variable (s : State) (n : Nat) (mode : ZoneMode)

theorem setZoneModeOwner_out_of_range (h : zoneOfNumber n = none) :
    setZoneModeOwner (.fields ⟨n, mode⟩) s = (s, .error .badArgument) := by
  rw [setZoneModeOwner, withFields_fields, h, withId_none]

variable {z : ZoneId} (hz : zoneOfNumber n = some z)
include hz

theorem setZoneModeOwner_absent (h : (s.site.ic.config z).present = false) :
    setZoneModeOwner (.fields ⟨n, mode⟩) s = (s, .error .zoneAbsent) := by
  rw [setZoneModeOwner, withFields_fields, hz, withId_some, require_of_false s h]

theorem setZoneModeOwner_passes (h : (s.site.ic.config z).present = true) :
    setZoneModeOwner (.fields ⟨n, mode⟩) s = (s.onSite fun m y => y.setMode m z mode, .ok []) := by
  rw [setZoneModeOwner, withFields_fields, hz, withId_some, require_of_true s h]
  rfl

end

/-! ### The commands -/

section
variable (s t : State) (l : Line) (a : Answer)

theorem exec_alarm_of_owner (b : Body Nat) (hs : s.taking (.alarm l) = true)
    (h : reported (.alarm l) b (fun l z s => accept (s.onSite fun m x => x.alarm m l z)) (s.supervise (.alarm l)) = (t, a)) :
    exec (.alarm (.alarm l) b) s = .next (t.reply (.alarm l) a) := by
  change Host.Outcome.next _ = _
  rw [State.serve_taken s _ _ _ hs rfl, h]

theorem exec_restore_of_owner (b : Body Nat) (hs : s.taking (.alarm l) = true)
    (h : reported (.alarm l) b (fun l z s => accept (s.onSite fun m x => x.restore m l z)) (s.supervise (.alarm l)) = (t, a)) :
    exec (.restore (.alarm l) b) s = .next (t.reply (.alarm l) a) := by
  change Host.Outcome.next _ = _
  rw [State.serve_taken s _ _ _ hs rfl, h]

theorem exec_setZoneMode_of_owner (b : Body ZoneModeArgs) (hs : s.taking .ff = true)
    (h : setZoneModeOwner b (s.supervise .ff) = (t, a)) : exec (.setZoneMode .ff b) s = .next (t.reply .ff a) := by
  change Host.Outcome.next _ = _
  rw [State.serve_taken s _ _ _ hs rfl, h]

variable {n : Nat} {z : ZoneId} (hz : zoneOfNumber n = some z) (hp : (s.site.ic.config z).present = true)
include hz hp

theorem exec_alarm_accepted (hs : s.taking (.alarm l) = true) (hl : (s.site.ic.config z).permitted.has l = true) :
    exec (.alarm (.alarm l) (.fields n)) s =
      .next (((s.supervise (.alarm l)).onSite fun m x => x.alarm m l z).reply (.alarm l) (.ok [])) :=
  exec_alarm_of_owner s _ l _ _ hs (reported_passes _ l n _ hz (by rwa [State.supervise_ic]) (by rwa [State.supervise_ic]))

theorem exec_restore_accepted (hs : s.taking (.alarm l) = true) (hl : (s.site.ic.config z).permitted.has l = true) :
    exec (.restore (.alarm l) (.fields n)) s =
      .next (((s.supervise (.alarm l)).onSite fun m x => x.restore m l z).reply (.alarm l) (.ok [])) :=
  exec_restore_of_owner s _ l _ _ hs (reported_passes _ l n _ hz (by rwa [State.supervise_ic]) (by rwa [State.supervise_ic]))

theorem exec_setZoneMode_accepted (hs : s.taking .ff = true) (mode : ZoneMode) :
    exec (.setZoneMode .ff (.fields ⟨n, mode⟩)) s =
      .next (((s.supervise .ff).onSite fun m y => y.setMode m z mode).reply .ff (.ok [])) :=
  exec_setZoneMode_of_owner s _ _ _ hs (setZoneModeOwner_passes _ n mode hz (by rwa [State.supervise_ic]))

end

/-- Settles O23: each check refuses once those before it have passed. -/
theorem zoneRequestsAreCheckedBeforeTheyAct : Obligations.ZoneRequestsAreCheckedBeforeTheyAct := by
  intro s l n mode ha hf
  dsimp only
  have absent {z : ZoneId} (p : Port) (h : (s.site.ic.config z).present = false) :
      ((s.supervise p).site.ic.config z).present = false := by rwa [State.supervise_ic]
  have present {z : ZoneId} (h : (s.site.ic.config z).present = true) :
      ((s.supervise (.alarm l)).site.ic.config z).present = true := by rwa [State.supervise_ic]
  have unpermitted {z : ZoneId} (h : (s.site.ic.config z).permitted.has l = false) :
      ((s.supervise (.alarm l)).site.ic.config z).permitted.has l = false := by rwa [State.supervise_ic]
  refine ⟨?_, ?_, ?_, fun hn => ⟨⟨?_, ?_⟩, ?_⟩, fun z hz h => ⟨⟨?_, ?_⟩, ?_⟩, fun z hz hp h => ⟨?_, ?_⟩⟩
  · exact exec_alarm_of_owner s _ l _ _ ha rfl
  · exact exec_restore_of_owner s _ l _ _ ha rfl
  · exact exec_setZoneMode_of_owner s _ _ _ hf rfl
  · exact exec_alarm_of_owner s _ l _ _ ha (reported_out_of_range _ n _ _ (zoneOfNumber_eq_none hn))
  · exact exec_restore_of_owner s _ l _ _ ha (reported_out_of_range _ n _ _ (zoneOfNumber_eq_none hn))
  · exact exec_setZoneMode_of_owner s _ _ _ hf (setZoneModeOwner_out_of_range _ n mode (zoneOfNumber_eq_none hn))
  · exact exec_alarm_of_owner s _ l _ _ ha (reported_absent _ l n _ hz (absent _ h))
  · exact exec_restore_of_owner s _ l _ _ ha (reported_absent _ l n _ hz (absent _ h))
  · exact exec_setZoneMode_of_owner s _ _ _ hf (setZoneModeOwner_absent _ n mode hz (absent _ h))
  · exact exec_alarm_of_owner s _ l _ _ ha (reported_notPermitted _ l n _ hz (present hp) (unpermitted h))
  · exact exec_restore_of_owner s _ l _ _ ha (reported_notPermitted _ l n _ hz (present hp) (unpermitted h))

end Sys2Proof.Machine
end


section
/-!
SUPPORT. What RESTORE does by the state of its zone: O25.
-/

namespace Sys2Proof.Machine

theorem LineSet.isEmpty_iff (l : LineSet) : l.isEmpty = true ↔ l = LineSet.empty := by
  obtain ⟨a, b, c, d⟩ := l
  simp [LineSet.isEmpty, LineSet.empty, and_assoc]

theorem LineSet.isEmpty_eq_false_iff (l : LineSet) : l.isEmpty = false ↔ l ≠ LineSet.empty := by
  rw [Ne, ← l.isEmpty_iff, Bool.not_eq_true]

section
variable (m : Pmc) (l : Line) (z : ZoneId) {x y : Site} (hy : y = x.modZone z fun r => { r with holders := r.holders.remove l })
include hy

/-- With holders left, or in a state that loses nothing with the last, RESTORE takes the holder alone (R10). -/
theorem Site.restore_unchanged (h : (y.zone z).holders ≠ LineSet.empty
      ∨ ((y.zone z).state = .active ∧ (y.zone z).origin ≠ some .alarm) ∨ (y.zone z).state = .heldOff
      ∨ (y.zone z).state = .normal ∨ (y.zone z).state = .restoring ∨ (y.zone z).state = .testing) :
    x.restore m l z = y := by
  unfold Site.restore
  rw [← hy]
  dsimp only
  obtain h | ⟨h, ho⟩ | h := h
  · rw [(y.zone z).holders.isEmpty_eq_false_iff.mpr h]; rfl
  · simp [h, ho]
  · obtain h | h | h | h := h <;> simp [h]

/-- The last holder of an ACTIVE zone of origin ALARM begins its purge (R10). -/
theorem Site.restore_purges (hh : (y.zone z).holders = LineSet.empty) (hs : (y.zone z).state = .active)
    (ho : (y.zone z).origin = some .alarm) : x.restore m l z = (y.beginPurge z).reportZone z .restore := by
  unfold Site.restore
  rw [← hy]
  simp [hs, ho, (y.zone z).holders.isEmpty_iff.mpr hh]

theorem Site.restore_leaves (hh : (y.zone z).holders = LineSet.empty) (hs : (y.zone z).state = .lockedOut) :
    x.restore m l z = y.leave m z .normal .restore := by
  unfold Site.restore
  rw [← hy]
  simp [hs, (y.zone z).holders.isEmpty_iff.mpr hh]

end

theorem Site.beginPurge_state (x : Site) (z : ZoneId) : ((x.beginPurge z).zone z).state = .restoring := by
  rw [Site.beginPurge, Site.modZone_zone_same]

/-- Settles O25, by the holders left, the state and the origin. -/
theorem aRestoreRemovesTheHolderAndMayPurge : Obligations.ARestoreRemovesTheHolderAndMayPurge := by
  intro s l n z
  dsimp only
  intro hs hz hp hl
  rw [exec_restore_accepted s l hz hp hs hl]
  generalize hy : ((s.supervise (.alarm l)).site.modZone z fun r => { r with holders := r.holders.remove l }) = y
  have order : y.ic.fireOrder = (s.supervise (.alarm l)).site.ic.fireOrder := by rw [← hy, Site.modZone_fireOrder]
  refine ⟨fun h => ?_, fun hh hst ho => ?_, fun hh hst hout => ⟨_, rfl, State.reply_accepted .., ?_⟩⟩
  · have e := Site.restore_unchanged (s.supervise (.alarm l)).pmc l z hy.symm h
    rw [State.onSite_of_order _ _ (e ▸ order), e]
  · have e := Site.restore_purges (s.supervise (.alarm l)).pmc l z hy.symm hh hst ho
    rw [State.onSite_of_order _ _ (e ▸ order), e, Site.reportZone, Site.beginPurge_state]
    have now : y.works.plant.now = s.now := by rw [← hy]; exact s.supervise_now _
    have config : y.ic.config z = s.site.ic.config z := by
      rw [← hy, Incident.config, Site.modZone_cfg, State.supervise_ic]; rfl
    rw [Site.beginPurge, now, config]
  · have e := Site.restore_leaves (s.supervise (.alarm l)).pmc l z hy.symm hh hst
    obtain ⟨hin, -⟩ | ⟨-, k⟩ := y.leave_cases (s.supervise (.alarm l)).pmc z .restore .normal
    · exact absurd hin hout
    have all : (y.ic.remove z .normal).fireOrder = y.ic.fireOrder :=
      List.filter_eq_self.mpr fun a ha => by simpa using fun e : a = z => hout (e ▸ ha)
    have ic : (((s.supervise (.alarm l)).onSite fun m x => x.restore m l z).reply (.alarm l) (.ok [])).site.ic =
        y.ic.remove z .normal := by
      rw [State.reply_site, State.onSite_site, e, k, Site.depart_ic]
    refine ⟨?_, ?_, ?_, fun a ha => ?_, ?_⟩
    · rw [State.zone, Site.zone, ic, Incident.remove_zone_same]
    · rw [ic]; rfl
    · rw [ic, all]
    · rw [State.zone, Site.zone, ic, y.ic.remove_zone_other a z .normal ha]; rfl
    · rw [State.onSite_of_order _ _ ?_, State.reply_pmc, State.supervise_pmc]
      rw [e, k, Site.depart_ic, all, order]

end Sys2Proof.Machine
end


section
/-!
SUPPORT. A request that aborts the test in progress and changes the record of its zone before it acts (R8, R12), and the command
that it completes. What ALARM does: O24.
-/

namespace Sys2Proof.Machine

/-! ### Before the request acts -/

/-- From `x` to `y` the test in progress is aborted and the record of zone `z` then changed by `g`: lists, ranks and
configuration stand, the Timebase stands, and a zone that does not become NORMAL goes on with its plan (R124). -/
structure Site.Readied (z : ZoneId) (g : Zone → Zone) (x y : Site) : Prop where
  order : y.ic.fireOrder = x.ic.fireOrder
  locked : y.ic.lockedOut = x.ic.lockedOut
  rank : y.ic.rank = x.ic.rank
  cfg : y.ic.cfg = x.ic.cfg
  now : y.works.plant.now = x.works.plant.now
  record : ∃ st, y.zone z = g { x.zone z with state := st }
  goesOn : (y.zone z).state ≠ .normal → Works.Follows z x.works y.works
  covers : x.works.Covers z → y.works.Covers z

section
variable (m : Pmc) (x : Site) (z : ZoneId) (c : AbortCause) (g : Zone → Zone)

theorem Site.readied (hg : ∀ r, (g r).state = r.state) : x.Readied z g ((x.abortTest m c).modZone z g) := by
  have zone : ((x.abortTest m c).modZone z g).zone z = g ((x.abortTest m c).zone z) := Site.modZone_zone_same _ z g
  cases h : x.works.ts.test with
  | none =>
    rw [Site.abortTest, x.closeTest_of_none m _ h] at zone ⊢
    exact ⟨rfl, rfl, rfl, rfl, rfl, ⟨_, zone⟩, fun _ => .refl z _, id⟩
  | some u =>
    obtain ⟨hic, -, -, now, follows, covers⟩ := x.closeTest_spec m (some c) u h
    rw [← Site.abortTest] at hic now follows covers
    have record (a : ZoneId) := congrFun (congrArg Incident.zone hic) a
    have order : (x.abortTest m c).ic.fireOrder = x.ic.fireOrder := by rw [hic]; rfl
    have locked : (x.abortTest m c).ic.lockedOut = x.ic.lockedOut := by rw [hic]; rfl
    have rank : (x.abortTest m c).ic.rank = x.ic.rank := by rw [hic]; rfl
    have cfg : (x.abortTest m c).ic.cfg = x.ic.cfg := by rw [hic]; rfl
    by_cases e : z = u.zone
    · subst e
      have normal : (x.abortTest m c).zone u.zone = { x.zone u.zone with state := .normal } :=
        (record u.zone).trans (x.ic.modZone_zone_same u.zone _)
      rw [normal] at zone
      refine ⟨order, locked, rank, cfg, now, ⟨_, zone⟩, fun k => absurd ?_ k, covers⟩
      rw [zone, hg]
    · have same : (x.abortTest m c).zone z = x.zone z := (record z).trans (x.ic.modZone_zone_other u.zone z _ e)
      rw [same] at zone
      exact ⟨order, locked, rank, cfg, now, ⟨_, zone⟩, fun _ => follows z e, fun k => k.follow (follows z e)⟩

end

section
variable (s : State) (p : Port) (z : ZoneId) (c : AbortCause) (g : Zone → Zone)

theorem State.supervise_follows : Works.Follows z s.site.works (s.supervise p).site.works :=
  (Works.Follows.refl z s.site.works).congr (s.supervise_px p) (s.supervise_demands p) rfl rfl

/-- The same of a request on port `p`, the supervision of the port served before (R148, R152). -/
theorem State.readied (hg : ∀ r, (g r).state = r.state) :
    s.site.Readied z g (((s.supervise p).site.abortTest s.pmc c).modZone z g) := by
  obtain ⟨order, locked, rank, cfg, now, ⟨st, record⟩, goesOn, covers⟩ :=
    (s.supervise p).site.readied s.pmc z c g hg
  have ic := s.supervise_ic p
  have follows := s.supervise_follows p z
  exact ⟨order.trans (by rw [ic]), locked.trans (by rw [ic]), rank.trans (by rw [ic]), cfg.trans (by rw [ic]),
    now.trans (s.supervise_now p), ⟨st, record.trans (by rw [Site.zone, ic]; rfl)⟩, fun k => follows.trans (goesOn k),
    fun k => covers (k.follow follows)⟩

/-- The preparation keeps the zones consistent where it leaves the record's state, origin, rank and deadline. -/
theorem State.readied_minor (hs : ∀ r, (g r).state = r.state) (ho : ∀ r, (g r).origin = r.origin)
    (hr : ∀ r, (g r).rank = r.rank) (hp : ∀ r, (g r).purge = r.purge) :
    s.site.Minor (((s.supervise p).site.abortTest s.pmc c).modZone z g) :=
  ((s.supervise_calm p).minor.trans (Site.abortTest_minor ..)).trans
    (Site.modZone_minor_of_same _ z g (hs _) (ho _) (hr _) (hp _))

theorem State.mode_of_taking (h : s.taking p = true) : s.mode = .running := by
  simpa [State.isRunning] using (Bool.and_eq_true_iff.mp h).1

end

/-! ### The completed command -/

/-- The command on port `p` is accepted and leaves the site `x`; plan memory takes incident start exactly where the fire order
becomes non-empty (R18). -/
structure State.Completes (p : Port) (x : Site) (s t : State) : Prop where
  accepted : t.Accepted p
  site : t.site = x
  starts : s.site.ic.fireOrder = [] → x.ic.fireOrder ≠ [] → t.pmc = s.pmc.incidentStart x.works.plant.now
  stands : s.site.ic.fireOrder ≠ [] ∨ x.ic.fireOrder = [] → t.pmc = s.pmc

theorem State.completes (s : State) (p : Port) (f : Pmc → Site → Site) (fields : List Byte) :
    State.Completes p (f s.pmc (s.supervise p).site) s (((s.supervise p).onSite f).reply p (.ok fields)) := by
  have site : (((s.supervise p).onSite f).reply p (.ok fields)).site = f s.pmc (s.supervise p).site := by
    rw [State.reply_site, State.onSite_site, State.supervise_pmc]
  refine ⟨State.reply_accepted .., site, fun h k => ?_, fun h => ?_⟩ <;>
    rw [State.reply_pmc, State.onSite_pmc, State.supervise_ic, State.supervise_pmc]
  · exact if_pos ⟨h, k⟩
  · exact if_neg fun ⟨k, l⟩ => h.elim (· k) l

/-- A command that leaves the fire order changes the site alone. -/
theorem State.onSite_of_site (s : State) (p : Port) (f : Pmc → Site → Site) {w : Site}
    (e : f s.pmc (s.supervise p).site = w) (hw : w.ic.fireOrder = s.site.ic.fireOrder) :
    (s.supervise p).onSite f = { s.supervise p with site := w } := by
  have site : f (s.supervise p).pmc (s.supervise p).site = w := by rw [State.supervise_pmc, e]
  rw [State.onSite_of_order _ _ (by rw [site, hw, State.supervise_ic]), site]

/-! ### Admission (R7) -/

section
variable (m : Pmc) (x : Site) (z : ZoneId) (o : Origin) (c : ZoneCause)

theorem Incident.enroll_fireOrder_of_nil (ic : Incident) (h : ic.fireOrder = []) : (ic.enroll z o).fireOrder = [z] := by
  simp [Incident.enlist, Incident.place, h, insertByKey]

/-- What admission makes of the zone table, the counter and the locked-out list (R7, R13). -/
theorem Incident.enroll_spec (ic : Incident) :
    (ic.enroll z o).zone z =
        { ic.nextRank.zone z with state := .active, origin := some o, rank := some ic.nextRank.rank, purge := none }
      ∧ (ic.enroll z o).rank = ic.nextRank.rank ∧ (∀ y, y ≠ z → (ic.enroll z o).zone y = ic.nextRank.zone y)
      ∧ (ic.enroll z o).lockedOut = ic.lockedOut.filter (· != z) :=
  ⟨ic.enlist_zone_same z o, rfl, fun y e => ic.enlist_zone_other y z o e, ic.enroll_lockedOut z o⟩

/-- A zone that enters with origin ALARM under a counter with room, at or above every rank held, stands last (R4, R5). -/
theorem Incident.enroll_fireOrder_of_room (ic : Incident) (h : ic.rank < Config.max32)
    (hr : ∀ y ∈ ic.fireOrder, ic.rankOf y ≤ ic.rank) :
    (ic.enroll z .alarm).fireOrder = ic.fireOrder.filter (· != z) ++ [z] := by
  have next := ic.nextRank_of_ne h.ne
  refine (Incident.place_eq_append _ z fun y hy hne => ?_).trans (by simp)
  have held := hr y (by simpa using hy)
  refine (Incident.orderKey_le _ y).trans ?_
  simp only [Incident.orderKey, Incident.rankOf, Incident.modZone_zone_same, Incident.modZone_zone_other _ _ _ _ hne,
    Option.getD_some, Option.some.injEq, reduceCtorEq, if_false, next] at held ⊢
  exact Nat.add_le_add_left (Nat.le_succ_of_le held) _

/-- After incident start a zone stands at step 1 of the plan that it has just begun. -/
theorem Site.startIncident_fresh {plan : PlanInUse} {cls : ExecClass} {x : Site}
    (h : ∃ k, x.works.ctx z = some k ∧ Ctx.Fresh plan cls k) :
    ∃ k, (x.startIncident m).works.ctx z = some k ∧ Ctx.Fresh plan cls k := by
  obtain ⟨k, hk, fresh⟩ := h
  exact ⟨k, (x.startIncident_spares m z).works.kept k hk fresh.dwell, fresh⟩

end

theorem Site.lockOut_zone_same (x : Site) (z : ZoneId) (c : ZoneCause) :
    (x.lockOut z c).zone z = { x.zone z with state := .lockedOut } :=
  x.ic.modZone_zone_same z fun r => { r with state := .lockedOut }

theorem Site.lockOut_zone_other (x : Site) (y z : ZoneId) (c : ZoneCause) (h : y ≠ z) :
    (x.lockOut z c).zone y = x.zone y :=
  x.ic.modZone_zone_other z y (fun r => { r with state := .lockedOut }) h

/-! ### ALARM -/

section
variable (m : Pmc) (l : Line) (z : ZoneId) {x y : Site}
  (hy : y = (x.abortTest m .alarm).modZone z fun r => { r with holders := r.holders.add l })
include hy

theorem Site.alarm_of_normal (h : (y.zone z).state = .normal) : x.alarm m l z = y.takeIn m z .alarm := by
  unfold Site.alarm
  rw [← hy]
  simp [h]

theorem Site.alarm_of_restoring (h : (y.zone z).state = .restoring) :
    x.alarm m l z = (y.modZone z fun r => { r with state := .active, purge := none }).reportZone z .alarm := by
  unfold Site.alarm
  rw [← hy]
  simp [h]

theorem Site.alarm_unchanged (h : (y.zone z).state = .lockedOut ∨ (y.zone z).state = .active ∨ (y.zone z).state = .heldOff) :
    x.alarm m l z = y := by
  unfold Site.alarm
  rw [← hy]
  obtain h | h | h := h <;> simp [h]

end

/-- Settles O24: by the state of the zone once the test is aborted and the holder added, and for a NORMAL one by the cases of
R7. -/
theorem anAlarmActsByTheStateOfItsZone : Obligations.AnAlarmActsByTheStateOfItsZone := by
  intro s l n z
  dsimp only
  intro hs hz hp hl
  rw [exec_alarm_accepted s l hz hp hs hl]
  have done := s.completes (.alarm l) (fun m x => x.alarm m l z) []
  have ready := s.readied (.alarm l) z .alarm (fun r => { r with holders := r.holders.add l }) fun _ => rfl
  generalize hy : (((s.supervise (.alarm l)).site.abortTest s.pmc .alarm).modZone z fun r =>
    { r with holders := r.holders.add l }) = y at ready ⊢
  have config : y.ic.config z = s.site.ic.config z := by rw [Incident.config, ready.cfg, Incident.config]
  refine ⟨fun hn => ⟨_, rfl, done.accepted, ?_⟩, fun hr => ?_, fun hu => ?_⟩
  · have begun (t : State) (h : ∃ c, t.site.works.ctx z = some c
        ∧ Ctx.Fresh (s.pmc.choosePlan (y.ic.config z).planBlock) .fire c) :
        ∃ c, t.site.works.ctx z = some c ∧ c.cls = .fire ∧ c.step = 1 ∧ c.outcomes = []
          ∧ c.plan = s.pmc.choosePlan (s.site.ic.config z).planBlock := by
      obtain ⟨c, hc, fresh⟩ := h
      exact ⟨c, hc, fresh.cls, fresh.step, fresh.outcomes, config ▸ fresh.plan⟩
    obtain ⟨-, site, starts, stands⟩ := done
    generalize ((s.supervise (.alarm l)).onSite _).reply _ _ = t at *
    rw [Site.alarm_of_normal s.pmc l z hy.symm hn] at site starts stands
    obtain ⟨ho, e⟩ | ⟨ho, hc, e⟩ | ⟨ho, hc, e⟩ := y.takeIn_cases s.pmc z .alarm <;> rw [e] at site starts stands <;>
      rw [← ready.order] at starts stands
    · refine ⟨fun _ => ?_, fun k => absurd ho k, fun k => absurd ho k⟩
      have ic : t.site.ic = y.ic.enroll z .alarm := by rw [site, Site.startIncident_ic, Site.becomeActive_ic]
      have order := y.ic.enroll_fireOrder_of_nil z .alarm ho
      have now := ((y.becomeActive_stands s.pmc z .alarm .alarm).trans (Site.startIncident_stands s.pmc _)).now
      obtain ⟨zone, rank, others, locked⟩ := y.ic.enroll_spec z .alarm
      have starts := starts ho (by rw [← site, ic, order]; simp)
      rw [now, ready.now] at starts
      rw [← ic] at order zone rank others locked
      refine ⟨zone, order, rank, others, locked, starts, begun t ?_, ?_⟩
      · rw [site]; exact Site.startIncident_fresh s.pmc z (y.becomeActive_fresh s.pmc z .alarm .alarm)
      · rw [State.plant, site]; exact Site.startIncident_normals s.pmc _
    · refine ⟨fun k => absurd k ho, fun _ _ => ?_, fun _ k => by rw [hc] at k; cases k⟩
      have ic : t.site.ic = y.ic.enroll z .alarm := by rw [site, Site.becomeActive_ic]
      have order : z ∈ (y.ic.enroll z .alarm).fireOrder := (y.ic.mem_enlist z z .alarm).mpr (.inl rfl)
      have last := y.ic.enroll_fireOrder_of_room z
      obtain ⟨zone, rank, others, locked⟩ := y.ic.enroll_spec z .alarm
      rw [← ic] at order last zone rank others locked
      refine ⟨zone, order, rank, others, locked, stands (.inl ho), begun t ?_, last⟩
      rw [site]
      exact y.becomeActive_fresh s.pmc z .alarm .alarm
    · refine ⟨fun k => absurd k ho, fun _ k => (by rw [hc] at k; cases k), fun _ _ => ?_⟩
      rw [State.zone, site]
      refine ⟨y.lockOut_zone_same z _, rfl, rfl, rfl, fun a ha => ?_, rfl, stands (.inl ho)⟩
      rw [State.zone, site]
      exact y.lockOut_zone_other a z _ ha
  · have e := Site.alarm_of_restoring s.pmc l z hy.symm hr
    rw [State.onSite_of_site s _ _ e (by exact ready.order), Site.reportZone, Site.modZone_zone_same]
  · rw [State.onSite_of_site s _ _ (Site.alarm_unchanged s.pmc l z hy.symm hu) ready.order]

end Sys2Proof.Machine
end


section
/-!
SUPPORT. What SET ZONE MODE(z, EXTRACT) does: O26.
-/

namespace Sys2Proof.Machine

/-! ### A zone that has entered the fire order -/

/-- From `ic` to `jc` zone `z` has entered the fire order with origin `o` and, where no renumbering comes between, the next
rank. -/
structure Incident.Entered (z : ZoneId) (o : Origin) (ic jc : Incident) : Prop where
  record : ∃ q, jc.zone z = { ic.zone z with state := .active, origin := some o, rank := q, purge := none }
  order : z ∈ jc.fireOrder
  unlocked : z ∉ jc.lockedOut
  rank : ic.rank + 49 ≤ Config.max32 → (jc.zone z).rank = some (ic.rank + 1)

theorem Incident.Entered.placed {z : ZoneId} {o : Origin} {ic jc : Incident} (h : ic.Entered z o jc) :
    (∃ q, jc.zone z = { ic.zone z with state := .active, origin := some o, rank := q, purge := none })
      ∧ z ∈ jc.fireOrder ∧ z ∉ jc.lockedOut :=
  ⟨h.record, h.order, h.unlocked⟩

section
variable (ic : Incident) (z : ZoneId) (o : Origin) (head : Option ZoneId)

theorem Incident.enroll_entered : ic.Entered z o (ic.enroll z o) := by
  obtain ⟨q, hq⟩ := (ic.nextRank_spares z).renumbered
  have zone : (ic.enroll z o).zone z = _ := ic.enlist_zone_same z o
  refine ⟨⟨_, by rw [zone, hq]⟩, (ic.mem_enlist z z o).mpr (.inl rfl), by simp, fun h => ?_⟩
  rw [zone, ic.nextRank_of_ne (by omega)]

/-- It stays so through what follows the change of the fire order. -/
theorem Incident.enroll_afterOrder_entered (hl : ic.lockedOut.Nodup) : ic.Entered z o ((ic.enroll z o).afterOrder head) := by
  obtain ⟨⟨q, hq⟩, order, unlocked, rank⟩ := ic.enroll_entered z o
  have spared := (ic.enroll z o).afterOrder_spares z head unlocked
  obtain ⟨p, hp⟩ := spared.renumbered
  refine ⟨⟨p, by rw [hp, hq]⟩, spared.order.mpr order, fun k => unlocked (spared.locked.mp k), fun h => ?_⟩
  have room : (ic.enroll z o).rank + 48 ≤ Config.max32 := by
    rw [Incident.enroll_rank, ic.nextRank_of_ne (by omega)]
    dsimp only
    omega
  rw [Incident.afterOrder_zone _ z head (by simpa using hl.filter _) room unlocked, rank h]

end

/-- A zone that was executing before the request keeps its plan and goes on from its cursor through what the request does. -/
theorem Site.Readied.executes_on {z : ZoneId} {g : Zone → Zone} {x y : Site} (h : x.Readied z g y) (w : y.Whole)
    (hn : (y.zone z).state ≠ .normal) (he : (y.zone z).state.executes = true) {v : Works} (f : Works.Follows z y.works v) :
    ∃ c k, x.works.ctx z = some c ∧ v.ctx z = some k ∧ k.plan = c.plan ∧ k.cls = c.cls ∧ c.step ≤ k.step
      ∧ c.outcomes <+: k.outcomes := by
  have before : (x.works.ctx z).isSome = true := (h.goesOn hn).isSome.symm.trans ((w.agrees z).executing.mpr he)
  obtain ⟨c, hc⟩ := Option.isSome_iff_exists.mp before
  obtain ⟨k, hk, later⟩ := ((h.goesOn hn).trans f).goesOn c hc
  exact ⟨c, k, hc, hk, later.plan, later.cls, later.step, later.outcomes⟩

/-! ### EXTRACT -/

/-- A zone that EXTRACT moves within the fire order keeps its execution. -/
theorem Site.takeFf_move_afterOrder_follows (m : Pmc) (x : Site) (z : ZoneId) (c : ZoneCause) (head : Option ZoneId)
    (h : z ∉ x.ic.lockedOut) : Works.Follows z x.works (((x.takeFf z).move m z c).afterOrder m head).works :=
  (Site.move_follows m (x.takeFf z) z z c).trans
    (Site.afterOrder_spares m _ z head (by simpa [Site.takeFf, Site.move_ic] using h)).works

theorem Site.takeFf_move_ic (m : Pmc) (x : Site) (z : ZoneId) (c : ZoneCause) :
    ((x.takeFf z).move m z c).ic = x.ic.enlist z .ff := rfl

section
variable (m : Pmc) (x : Site) (z : ZoneId)

/-- EXTRACT of a zone that is not ACTIVE at origin FF lets it enter the fire order at origin FF (R13). -/
theorem Site.extract_entered (w : x.Whole) (hn : ¬ ((x.zone z).state = .active ∧ (x.zone z).origin = some .ff)) :
    x.ic.Entered z .ff (x.extract m z).ic := by
  obtain ⟨ha, ho, -⟩ | ⟨hs, -, e⟩ | ⟨-, -, -, e⟩ | ⟨-, -, -, e⟩ := x.extract_cases m z
  · exact absurd ⟨ha, ho⟩ hn
  · have unlocked : z ∉ x.ic.lockedOut := fun k => by
      obtain h | h := hs <;> rw [w.locked_state k] at h <;> cases h
    rw [e, Site.afterOrder_ic, Site.takeFf_move_ic, ← x.ic.enroll_eq_enlist z .ff unlocked]
    exact x.ic.enroll_afterOrder_entered z .ff _ w.sound.lockedOnce
  · rw [e, Site.startIncident_ic, Site.becomeActive_ic]
    exact x.ic.enroll_entered z .ff
  · rw [e, Site.afterOrder_ic, Site.becomeActive_ic]
    exact x.ic.enroll_afterOrder_entered z .ff _ w.sound.lockedOnce

/-- After EXTRACT the zone is ACTIVE at origin FF in the fire order (R13). -/
theorem Site.extract_placed (w : x.Whole) :
    (∃ q, (x.extract m z).zone z = { x.zone z with state := .active, origin := some .ff, rank := q, purge := none })
      ∧ z ∈ (x.extract m z).ic.fireOrder ∧ z ∉ (x.extract m z).ic.lockedOut := by
  obtain ⟨ha, ho, e⟩ | ⟨-, hn, -⟩ | ⟨hn, -⟩ | ⟨hn, -⟩ := x.extract_cases m z
  · have purge : (x.zone z).purge = none := (w.sound.each z).purge_eq_none (by
      rw [show x.ic.zone z = x.zone z from rfl, ha]; simp)
    have order : z ∈ x.ic.fireOrder := (w.sound.each z).order.mpr (by
      rw [show x.ic.zone z = x.zone z from rfl, ha]; rfl)
    rw [e]
    exact ⟨⟨(x.zone z).rank, by rw [← ha, ← ho, ← purge]⟩, order, w.sound.not_locked order⟩
  · exact (x.extract_entered m z w hn).placed
  · exact (x.extract_entered m z w (fun k => hn k.1)).placed
  · exact (x.extract_entered m z w (fun k => hn k.1)).placed

/-- EXTRACT of a zone that is executing leaves its plan and its cursor to go on (R13). -/
theorem Site.extract_follows (w : x.Whole) (hs : (x.zone z).state = .active ∨ (x.zone z).state = .restoring) :
    Works.Follows z x.works (x.extract m z).works := by
  obtain ⟨-, -, e⟩ | ⟨-, -, e⟩ | ⟨ha, hr, -⟩ | ⟨ha, hr, -⟩ := x.extract_cases m z
  · rw [e]; exact .refl z _
  · rw [e]
    refine x.takeFf_move_afterOrder_follows m z _ _ fun k => ?_
    obtain h | h := hs <;> rw [w.locked_state k] at h <;> cases h
  · exact absurd hs (by simp [ha, hr])
  · exact absurd hs (by simp [ha, hr])

/-- EXTRACT of a zone that is not executing for fire begins its plan (R20). -/
theorem Site.extract_fresh (ha : (x.zone z).state ≠ .active) (hr : (x.zone z).state ≠ .restoring) :
    ∃ k, (x.extract m z).works.ctx z = some k ∧ Ctx.Fresh (m.choosePlan (x.ic.config z).planBlock) .fire k := by
  have begun := x.becomeActive_fresh m z .ff .ffExtract
  obtain ⟨h, -⟩ | ⟨h, -⟩ | ⟨-, -, -, e⟩ | ⟨-, -, -, e⟩ := x.extract_cases m z
  · exact absurd h ha
  · exact absurd h (by simp [ha, hr])
  · rw [e]
    exact Site.startIncident_fresh m z begun
  · obtain ⟨k, hk, fresh⟩ := begun
    rw [e]
    refine ⟨k, (Site.afterOrder_spares m _ z _ ?_).works.kept k hk fresh.dwell, fresh⟩
    rw [Site.becomeActive_ic]
    exact (x.ic.enroll_entered z .ff).unlocked

theorem Site.extract_stands : Site.Stands x (x.extract m z) := by
  have became := x.becomeActive_stands m z .ff .ffExtract
  obtain ⟨-, -, e⟩ | ⟨-, -, e⟩ | ⟨-, -, -, e⟩ | ⟨-, -, -, e⟩ := x.extract_cases m z <;> rw [e]
  · exact .refl x
  · have moved := (Site.move_stands m (x.takeFf z) z .ffExtract).trans (Site.afterOrder_stands m _ x.ic.lead)
    exact ⟨moved.now, moved.test⟩
  · exact became.trans (Site.startIncident_stands ..)
  · exact became.trans (Site.afterOrder_stands ..)

/-- EXTRACT of the first zone of the fire order is incident start: no list holds a NORMAL entry any more (R18, R60). -/
theorem Site.extract_normals (w : x.Whole) (ho : x.ic.fireOrder = []) (a : ActId) (e : Demand)
    (he : e ∈ (x.extract m z).works.plant.demands.look a) : e.orig ≠ .bl := by
  have out : (x.ic.zone z).state.inFire ≠ true := fun k => by
    have := (w.sound.each z).order.mpr k
    rw [ho] at this
    cases this
  have notActive (h : (x.zone z).state = .active ∨ (x.zone z).state = .restoring) : False := by
    apply out
    obtain h | h := h <;> rw [show x.ic.zone z = x.zone z from rfl, h] <;> rfl
  obtain ⟨h, -⟩ | ⟨h, -⟩ | ⟨-, -, -, k⟩ | ⟨-, -, h, -⟩ := x.extract_cases m z
  · exact (notActive (.inl h)).elim
  · exact (notActive h).elim
  · rw [k] at he
    exact Site.startIncident_normals m _ a e he
  · exact absurd ho h

end

/-- Settles O26: an ACTIVE zone of origin FF stays as it is, every other zone enters the fire order. -/
theorem extractPlacesTheZoneInTheFireOrder : Obligations.ExtractPlacesTheZoneInTheFireOrder := by
  intro s n z consistent
  dsimp only
  intro hs hz hp
  rw [exec_setZoneMode_accepted s hz hp hs]
  have done := s.completes .ff (fun m x => x.setMode m z .extract) []
  have ready := s.readied .ff z .ff (fun r => { r with ffMode := .extract }) fun _ => rfl
  have minor := s.readied_minor .ff z .ff (fun r => { r with ffMode := .extract }) (fun _ => rfl) (fun _ => rfl)
    (fun _ => rfl) fun _ => rfl
  have whole := (Site.consistent_iff _).mp (minor.holds (consistent (s.mode_of_taking _ hs))).1 |>.1
  change State.Completes .ff (Site.extract s.pmc z (((s.supervise .ff).site.abortTest s.pmc .ff).modZone z fun r =>
    { r with ffMode := .extract })) s _ at done
  have same : (fun m x => Site.setMode m z .extract x) s.pmc (s.supervise .ff).site =
    Site.extract s.pmc z (((s.supervise .ff).site.abortTest s.pmc .ff).modZone z fun r => { r with ffMode := .extract }) := rfl
  generalize (((s.supervise .ff).site.abortTest s.pmc .ff).modZone z fun r => { r with ffMode := .extract }) = y at *
  refine ⟨fun ha ho => ?_, _, rfl, done.accepted, ?_⟩
  · obtain ⟨-, -, e⟩ | ⟨-, h, -⟩ | ⟨h, -⟩ | ⟨h, -⟩ := y.extract_cases s.pmc z
    · rw [State.onSite_of_site s _ _ (same.trans e) ready.order]
    · exact absurd ⟨ha, ho⟩ h
    · exact absurd ha h
    · exact absurd ha h
  clear same
  obtain ⟨-, site, starts, stands⟩ := done
  generalize ((s.supervise .ff).onSite _).reply _ _ = t at *
  obtain ⟨st, hrec⟩ := ready.record
  have config : y.ic.config z = s.site.ic.config z := by rw [Incident.config, ready.cfg, Incident.config]
  obtain ⟨⟨q, zone⟩, order, unlocked⟩ := y.extract_placed s.pmc z whole
  have zone : t.zone z = { y.zone z with state := .active, origin := some .ff, rank := q, purge := none } := by
    rw [State.zone, site, zone]
  have nonempty : (y.extract s.pmc z).ic.fireOrder ≠ [] := List.ne_nil_of_mem order
  have now : (y.extract s.pmc z).works.plant.now = s.now := (y.extract_stands s.pmc z).now.trans ready.now
  rw [← ready.order] at starts stands
  refine ⟨by rw [zone], by rw [zone], by rw [zone, hrec], by rw [zone, hrec]; rfl, by rw [zone], site ▸ order,
    site ▸ unlocked, fun hn room => ?_, fun hx => ?_, fun ha hr => ?_, fun ho => ⟨now ▸ starts ho nonempty, ?_⟩,
    fun ho => stands (.inl ho)⟩
  · rw [State.zone, site]
    exact (y.extract_entered s.pmc z whole hn).rank room
  · rw [site]
    exact ready.executes_on whole (by obtain h | h := hx <;> simp [h]) (by obtain h | h := hx <;> simp [h, ZoneState.executes])
      (y.extract_follows s.pmc z whole hx)
  · obtain ⟨k, hk, fresh⟩ := y.extract_fresh s.pmc z ha hr
    exact ⟨k, by rw [site]; exact hk, fresh.cls, config ▸ fresh.plan⟩
  · rw [State.plant, site]
    exact y.extract_normals s.pmc z whole ho

end Sys2Proof.Machine
end


section
/-!
SUPPORT. What SET ZONE MODE(z, AUTO) does: O28.
-/

namespace Sys2Proof.Machine

/-! ### A zone of origin FF handed back to its alarms -/

section
variable (m : Pmc) (x : Site) (z : ZoneId) (c : ZoneCause) (head : Option ZoneId)

theorem Site.surrender_works : (x.surrender z).works = x.works := by
  unfold Site.surrender
  split <;> rfl

theorem Site.surrender_lockedOut : (x.surrender z).ic.lockedOut = x.ic.lockedOut := by
  unfold Site.surrender
  split <;> rfl

theorem Site.surrender_rank : (x.surrender z).ic.rank = x.ic.rank := by
  unfold Site.surrender
  split <;> rfl

theorem Site.surrender_zone_of_empty (h : (x.zone z).holders = LineSet.empty) :
    (x.surrender z).zone z = { x.zone z with
      state := .restoring, purge := some (x.works.plant.now + (x.ic.config z).purgeTime * 1000), origin := some .alarm } := by
  rw [Site.surrender, if_pos ((x.zone z).holders.isEmpty_iff.mpr h), Site.modZone_zone_same, Site.beginPurge,
    Site.modZone_zone_same]

theorem Site.surrender_zone_of_held (h : (x.zone z).holders ≠ LineSet.empty) :
    (x.surrender z).zone z = { x.zone z with origin := some .alarm } := by
  rw [Site.surrender, if_neg (by simpa using (x.zone z).holders.isEmpty_eq_false_iff.mpr h), Site.modZone_zone_same]

theorem Site.surrender_zone_rank : ((x.surrender z).zone z).rank = (x.zone z).rank := by
  by_cases h : (x.zone z).holders = LineSet.empty
  · rw [x.surrender_zone_of_empty z h]
  · rw [x.surrender_zone_of_held z h]

/-- A zone handed back stands in the fire order with the record that its alarms give, but for a renumbering, and goes on. -/
theorem Site.surrender_move_spares (h : z ∉ x.ic.lockedOut) :
    Site.Spares z ((x.surrender z).move m z c) (((x.surrender z).move m z c).afterOrder m head) :=
  Site.afterOrder_spares m _ z head (by rw [Site.move_ic, Incident.place_lockedOut, Site.surrender_lockedOut]; exact h)

theorem Site.surrender_move_record (h : z ∉ x.ic.lockedOut) :
    ∃ q, (((x.surrender z).move m z c).afterOrder m head).zone z = { (x.surrender z).zone z with rank := q } := by
  have moved : ((x.surrender z).move m z c).zone z = (x.surrender z).zone z := by
    rw [Site.zone, Site.move_ic, Incident.place_zone, Site.zone]
  obtain ⟨q, hq⟩ := (x.surrender_move_spares m z c head h).zone
  exact ⟨q, by rw [hq, moved]⟩

theorem Site.surrender_move_order (h : z ∉ x.ic.lockedOut) :
    z ∈ (((x.surrender z).move m z c).afterOrder m head).ic.fireOrder :=
  (x.surrender_move_spares m z c head h).ic.order.mpr ((Incident.mem_place _ z z).mpr (.inl rfl))

theorem Site.surrender_move_follows (h : z ∉ x.ic.lockedOut) :
    Works.Follows z x.works (((x.surrender z).move m z c).afterOrder m head).works := by
  have moved := Site.move_follows m (x.surrender z) z z c
  rw [Site.surrender_works] at moved
  exact moved.trans (x.surrender_move_spares m z c head h).works

/-- It keeps its rank where the counter has room (R15). -/
theorem Site.surrender_move_rank (hl : x.ic.lockedOut.Nodup) (h : z ∉ x.ic.lockedOut)
    (room : x.ic.rank + 48 ≤ Config.max32) :
    ((((x.surrender z).move m z c).afterOrder m head).zone z).rank = (x.zone z).rank := by
  have zone : ((x.surrender z).ic.place z).zone z = (x.surrender z).zone z := rfl
  rw [Site.zone, Site.afterOrder_ic, Site.move_ic, Incident.afterOrder_zone, zone, Site.surrender_zone_rank] <;>
    rw [Incident.place]
  · exact x.surrender_lockedOut z ▸ hl
  · exact x.surrender_rank z ▸ room
  · exact x.surrender_lockedOut z ▸ h

end

/-! ### What AUTO leaves of the zone's record -/

section
variable (m : Pmc) (x : Site) (z : ZoneId) (c : ZoneCause)

theorem Site.takeIn_entered (h : x.ic.fireOrder = [] ∨ x.ic.compatible z = true) :
    x.ic.Entered z .alarm (x.takeIn m z c).ic := by
  obtain ⟨-, e⟩ | ⟨-, -, e⟩ | ⟨ho, hc, -⟩ := x.takeIn_cases m z c
  · rw [e, Site.startIncident_ic]
    exact x.ic.enroll_entered z .alarm
  · rw [e]
    exact x.ic.enroll_entered z .alarm
  · exact absurd h (by simp [ho, hc])

theorem Site.takeIn_of_incompatible (ho : x.ic.fireOrder ≠ []) (hc : x.ic.compatible z = false) :
    x.takeIn m z c = x.lockOut z c := by
  obtain ⟨k, -⟩ | ⟨-, k, -⟩ | ⟨-, -, e⟩ := x.takeIn_cases m z c
  · exact absurd k ho
  · rw [hc] at k; cases k
  · exact e

/-- The first zone of the fire order is incident start: no list holds a NORMAL entry any more (R18, R60). -/
theorem Site.takeIn_normals (ho : x.ic.fireOrder = []) (a : ActId) (e : Demand)
    (he : e ∈ (x.takeIn m z c).works.plant.demands.look a) : e.orig ≠ .bl := by
  obtain ⟨-, k⟩ | ⟨k, -⟩ | ⟨k, -⟩ := x.takeIn_cases m z c
  · rw [k] at he
    exact Site.startIncident_normals m _ a e he
  · exact absurd ho k
  · exact absurd ho k

theorem Site.takeIn_now : (x.takeIn m z c).works.plant.now = x.works.plant.now := by
  obtain ⟨-, e⟩ | ⟨-, -, e⟩ | ⟨-, -, e⟩ := x.takeIn_cases m z c <;> rw [e]
  · exact ((x.becomeActive_stands ..).trans (Site.startIncident_stands ..)).now
  · exact (x.becomeActive_stands ..).now
  · rfl

theorem Site.takeIn_record :
    ((x.takeIn m z c).zone z).ffMode = (x.zone z).ffMode ∧ ((x.takeIn m z c).zone z).holders = (x.zone z).holders := by
  by_cases h : x.ic.fireOrder = [] ∨ x.ic.compatible z = true
  · obtain ⟨q, hq⟩ := (x.takeIn_entered m z c h).record
    rw [Site.zone, hq]
    exact ⟨rfl, rfl⟩
  · obtain ⟨ho, hc⟩ := not_or.mp h
    rw [x.takeIn_of_incompatible m z c ho (by simpa using hc), Site.lockOut_zone_same]
    exact ⟨rfl, rfl⟩

/-- AUTO keeps the recorded mode and the holders. -/
theorem Site.handBack_record (w : x.Whole) :
    ((x.handBack m z).zone z).ffMode = (x.zone z).ffMode ∧ ((x.handBack m z).zone z).holders = (x.zone z).holders := by
  obtain ⟨-, -, e⟩ | ⟨-, -, e⟩ | ⟨ha, -, e⟩ | ⟨-, -, e⟩ := x.handBack_cases m z <;> rw [e]
  · have zone : ((x.modZone z fun r => { r with state := .normal }).reportZone z .ffAuto).zone z = _ :=
      x.modZone_zone_same z fun r => { r with state := .normal }
    rw [zone]
    exact ⟨rfl, rfl⟩
  · exact x.takeIn_record m z _
  · have out : z ∉ x.ic.lockedOut := fun k => by rw [w.locked_state k] at ha; cases ha
    obtain ⟨q, hq⟩ := x.surrender_move_record m z .ffAuto x.ic.lead out
    rw [hq]
    by_cases h : (x.zone z).holders = LineSet.empty
    · rw [x.surrender_zone_of_empty z h]
      exact ⟨rfl, rfl⟩
    · rw [x.surrender_zone_of_held z h]
      exact ⟨rfl, rfl⟩
  · exact ⟨rfl, rfl⟩

theorem Site.handBack_of_heldOff (hs : (x.zone z).state = .heldOff) (hh : (x.zone z).holders ≠ LineSet.empty) :
    x.handBack m z = x.takeIn m z .ffAuto := by
  have held := (x.zone z).holders.isEmpty_eq_false_iff.mpr hh
  obtain ⟨-, k, -⟩ | ⟨-, -, e⟩ | ⟨k, -⟩ | ⟨k, -⟩ := x.handBack_cases m z
  · rw [held] at k; cases k
  · exact e
  · rw [hs] at k; cases k
  · exact absurd hs k

theorem Site.handBack_of_unheld (hs : (x.zone z).state = .heldOff) (hh : (x.zone z).holders = LineSet.empty) :
    x.handBack m z = (x.modZone z fun r => { r with state := .normal }).reportZone z .ffAuto := by
  obtain ⟨-, -, e⟩ | ⟨-, k, -⟩ | ⟨k, -⟩ | ⟨k, -⟩ := x.handBack_cases m z
  · exact e
  · exact absurd hh ((x.zone z).holders.isEmpty_eq_false_iff.mp k)
  · rw [hs] at k; cases k
  · exact absurd hs k

theorem Site.handBack_of_ff (hs : (x.zone z).state = .active) (ho : (x.zone z).origin = some .ff) :
    x.handBack m z = ((x.surrender z).move m z .ffAuto).afterOrder m x.ic.lead := by
  obtain ⟨k, -⟩ | ⟨k, -⟩ | ⟨-, -, e⟩ | ⟨-, k, -⟩ := x.handBack_cases m z
  · rw [hs] at k; cases k
  · rw [hs] at k; cases k
  · exact e
  · exact absurd ⟨hs, ho⟩ k

theorem Site.handBack_unchanged (hs : (x.zone z).state ≠ .heldOff)
    (hn : ¬ ((x.zone z).state = .active ∧ (x.zone z).origin = some .ff)) : x.handBack m z = x := by
  obtain ⟨k, -⟩ | ⟨k, -⟩ | ⟨ha, ho, -⟩ | ⟨-, -, e⟩ := x.handBack_cases m z
  · exact absurd k hs
  · exact absurd k hs
  · exact absurd ⟨ha, ho⟩ hn
  · exact e

/-- Only a held-off zone with holders can make the fire order non-empty. -/
theorem Site.handBack_order_of_nil (w : x.Whole) (ho : x.ic.fireOrder = [])
    (h : (x.zone z).state ≠ .heldOff ∨ (x.zone z).holders = LineSet.empty) : (x.handBack m z).ic.fireOrder = [] := by
  obtain ⟨-, -, e⟩ | ⟨hs, hh, -⟩ | ⟨ha, -, -⟩ | ⟨-, -, e⟩ := x.handBack_cases m z
  · rw [e]; exact ho
  · exact absurd h (by simp [hs, (x.zone z).holders.isEmpty_eq_false_iff.mp hh])
  · have : z ∈ x.ic.fireOrder := (w.sound.each z).order.mpr (by
      rw [show x.ic.zone z = x.zone z from rfl, ha]; rfl)
    rw [ho] at this
    cases this
  · rw [e]; exact ho

end

/-- Settles O28, by the state, the origin and the holders of the zone once the test is aborted and the mode recorded. -/
theorem autoHandsTheZoneBackToItsAlarms : Obligations.AutoHandsTheZoneBackToItsAlarms := by
  intro s n z consistent
  dsimp only
  intro hs hz hp
  rw [exec_setZoneMode_accepted s hz hp hs]
  have done := s.completes .ff (fun m x => x.setMode m z .auto) []
  have ready := s.readied .ff z .ff (fun r => { r with ffMode := .auto }) fun _ => rfl
  have minor := s.readied_minor .ff z .ff (fun r => { r with ffMode := .auto }) (fun _ => rfl) (fun _ => rfl)
    (fun _ => rfl) fun _ => rfl
  have whole := (Site.consistent_iff _).mp (minor.holds (consistent (s.mode_of_taking _ hs))).1 |>.1
  change State.Completes .ff (Site.handBack s.pmc z (((s.supervise .ff).site.abortTest s.pmc .ff).modZone z fun r =>
    { r with ffMode := .auto })) s _ at done
  have same : (fun m x => Site.setMode m z .auto x) s.pmc (s.supervise .ff).site =
    Site.handBack s.pmc z (((s.supervise .ff).site.abortTest s.pmc .ff).modZone z fun r => { r with ffMode := .auto }) := rfl
  generalize (((s.supervise .ff).site.abortTest s.pmc .ff).modZone z fun r => { r with ffMode := .auto }) = y at *
  have unchanged (h : (y.zone z).state = .normal ∨ (y.zone z).state = .lockedOut ∨ (y.zone z).state = .restoring
      ∨ ((y.zone z).state = .active ∧ (y.zone z).origin ≠ some .ff)) :
      (s.supervise .ff).onSite (fun m x => Site.setMode m z .auto x) = { s.supervise .ff with site := y } := by
    refine State.onSite_of_site s _ _ (same.trans (y.handBack_unchanged s.pmc z ?_ ?_)) ready.order
    · obtain h | h | h | ⟨h, -⟩ := h <;> simp [h]
    · obtain h | h | h | ⟨-, h⟩ := h <;> simp [h]
  refine ⟨_, rfl, done.accepted, ?_⟩
  obtain ⟨-, site, starts, stands⟩ := done
  generalize ((s.supervise .ff).onSite fun m x => Site.setMode m z .auto x) = u at *
  obtain ⟨st, hrec⟩ := ready.record
  have config : y.ic.config z = s.site.ic.config z := by rw [Incident.config, ready.cfg, Incident.config]
  obtain ⟨mode, holders⟩ := y.handBack_record s.pmc z whole
  rw [← ready.order] at starts stands
  rw [State.reply_site] at site
  simp only [State.zone, State.plant, State.reply_site, site]
  refine ⟨by rw [mode, hrec], by rw [holders, hrec], fun hs hh => ?_, fun hs hh ho => ?_, fun hs hh ho => ?_, fun h => ?_,
    fun hs hh ho hc => ?_, fun ha hf => ?_, fun h => by rw [unchanged h]⟩
  · rw [y.handBack_of_unheld s.pmc z hs hh]
    exact y.modZone_zone_same z fun r => { r with state := .normal }
  · have entered := y.takeIn_entered s.pmc z .ffAuto ho
    obtain ⟨q, hq⟩ := entered.record
    rw [y.handBack_of_heldOff s.pmc z hs hh, Site.zone, hq]
    exact ⟨rfl, rfl, entered.order⟩
  · rw [y.handBack_of_heldOff s.pmc z hs hh] at starts ⊢
    have order := (y.takeIn_entered s.pmc z .ffAuto (.inl ho)).order
    rw [starts ho (List.ne_nil_of_mem order), Site.takeIn_now, ready.now]
    exact ⟨rfl, y.takeIn_normals s.pmc z .ffAuto ho⟩
  · by_cases ho : y.ic.fireOrder = []
    · refine stands (.inr (y.handBack_order_of_nil s.pmc z whole ho ?_))
      exact h.imp_right fun k => k.resolve_right fun k => k ho
    · exact stands (.inl ho)
  · rw [y.handBack_of_heldOff s.pmc z hs hh, y.takeIn_of_incompatible s.pmc z .ffAuto ho hc, Site.lockOut_zone_same]
    exact ⟨rfl, rfl⟩
  · have out : z ∉ y.ic.lockedOut := fun k => by rw [whole.locked_state k] at ha; cases ha
    obtain ⟨q, hq⟩ := y.surrender_move_record s.pmc z .ffAuto y.ic.lead out
    have order := y.surrender_move_order s.pmc z .ffAuto y.ic.lead out
    have follows := y.surrender_move_follows s.pmc z .ffAuto y.ic.lead out
    have rank (room : y.ic.rank + 49 ≤ Config.max32) :=
      y.surrender_move_rank s.pmc z .ffAuto y.ic.lead whole.sound.lockedOnce out (by omega)
    rw [← y.handBack_of_ff s.pmc z ha hf] at hq order follows rank
    refine ⟨?_, order, fun hh => ?_, fun hh => ?_, rank, ready.executes_on whole (by simp [ha]) (by rw [ha]; rfl) follows⟩
    · rw [hq]
      by_cases hh : (y.zone z).holders = LineSet.empty
      · rw [y.surrender_zone_of_empty z hh]
      · rw [y.surrender_zone_of_held z hh]
    · rw [hq, y.surrender_zone_of_held z hh]
      exact ha
    · rw [hq, y.surrender_zone_of_empty z hh, config, ready.now]
      exact ⟨rfl, rfl⟩

end Sys2Proof.Machine
end


section
/-!
SUPPORT. The departure of the last zone of the fire order (R17, R19), and what SET ZONE MODE(z, OFF) does: O27.
-/

namespace Sys2Proof.Machine

/-! ### The last zone of the fire order departs -/

section
variable (ic : Incident) (z : ZoneId) (st : ZoneState)

/-- In an empty fire order under a counter at 0 the first zone of the locked-out list leads with rank 1 (R17, R19). -/
theorem Incident.reEvaluate_first (ho : ic.fireOrder = []) (hr : ic.rank = 0) {y : ZoneId} {l : List ZoneId}
    (e : ic.lockedOut = y :: l) (hl : ic.lockedOut.Nodup) :
    ic.reEvaluate.lead = some y
      ∧ ic.reEvaluate.zone y = { ic.zone y with state := .active, origin := some .alarm, rank := some 1, purge := none } := by
  obtain ⟨same, out, order⟩ := Incident.reEvaluate_of_nil ho e hl
  rw [e] at hl
  obtain ⟨hy, hl⟩ := List.nodup_cons.mp hl
  have ranked : ic.Ranked := ⟨by rw [ho]; exact .nil, by rw [hr]; exact Nat.zero_le _, fun z hz => by rw [ho] at hz; cases hz⟩
  have next : ic.nextRank = { ic with rank := 1 } := by rw [ic.nextRank_of_ne (by rw [hr]; decide), hr]
  have length := zones_length_le hl
  obtain ⟨-, -, lead⟩ := (ranked.enroll y .alarm).reEvaluate_of_ne_nil (by rw [order]; simp) (by rwa [out])
    (by rw [out, order]; exact fun z hz => by simpa using fun e : z = y => hy (e ▸ hz))
  have zone : (ic.enroll y .alarm).reEvaluate.zone y = (ic.enroll y .alarm).zone y := by
    refine Incident.readmits_zone _ y _ ?_ (by rwa [out])
    rw [out, Incident.enroll_rank, next, Config.max32]
    dsimp only
    omega
  refine ⟨by rw [same, lead, Incident.lead, order]; rfl, ?_⟩
  rw [same, zone, Incident.enroll_zone, Incident.enlist_zone_same, next]
  rfl

/-- The last zone of the fire order leaves an empty one, its counter at 0, before the locked-out list is judged again (R19). -/
theorem Incident.leave_of_last (h : ic.fireOrder = [z]) :
    ic.leave z st = ({ ic.remove z st with rank := 0 } : Incident).reEvaluate := by
  have empty : (ic.remove z st).fireOrder = [] := by simp [Incident.remove, h]
  obtain ⟨-, e⟩ | ⟨hz, -⟩ := ic.leave_cases z st
  · rw [e]
    exact if_pos (by rw [empty]; rfl)
  · exact absurd (by simp [h]) hz

/-- With none locked out the incident ends (R19). -/
theorem Incident.leave_ends (h : ic.fireOrder = [z]) (hl : ic.lockedOut = []) :
    (ic.leave z st).fireOrder = [] ∧ (ic.leave z st).rank = 0 := by
  have empty : (ic.remove z st).fireOrder = [] := by simp [Incident.remove, h]
  have none : (ic.remove z st).lockedOut = [] := by simp [Incident.remove, hl]
  rw [ic.leave_of_last z st h, Incident.reEvaluate, none]
  exact ⟨empty, rfl⟩

/-- With zones locked out the first of them leads (R17, R19). -/
theorem Incident.Sound.leave_leads {ic : Incident} {z : ZoneId} (w : ic.Sound) (h : ic.fireOrder = [z]) {y : ZoneId}
    {l : List ZoneId} (e : ic.lockedOut = y :: l) :
    (ic.leave z st).lead = some y ∧ ((ic.leave z st).zone y).state = .active
      ∧ ((ic.leave z st).zone y).origin = some .alarm ∧ ((ic.leave z st).zone y).rank = some 1 := by
  have out : z ∉ ic.lockedOut := w.not_locked (by simp [h])
  have locked : (ic.remove z st).lockedOut = ic.lockedOut :=
    List.filter_eq_self.mpr fun a ha => by simpa using fun k : a = z => out (k ▸ ha)
  have empty : (ic.remove z st).fireOrder = [] := by simp [Incident.remove, h]
  obtain ⟨lead, zone⟩ := Incident.reEvaluate_first { ic.remove z st with rank := 0 } empty rfl (locked.trans e)
    (by rw [show _ = ic.lockedOut from locked]; exact w.lockedOnce)
  rw [ic.leave_of_last z st h, zone]
  exact ⟨lead, rfl, rfl, rfl⟩

end

section
variable (m : Pmc) (x : Site) (z : ZoneId) (c : ZoneCause) (st : ZoneState)

/-- Demands that agree with the posted tables cover every zone (R42). -/
theorem Site.DemandsRight.covers {x : Site} (h : x.DemandsRight) (z : ZoneId) : x.works.Covers z := by
  rintro a ⟨e, he, ho⟩
  have held := h.held a e he
  simp only [Works.Held, ho] at held
  obtain ⟨k, hk, -, posted⟩ := held
  exact ⟨k, hk, (k.holds_iff a).mpr ⟨_, posted, rfl⟩⟩

/-- No list names a zone that has left (R42). -/
theorem Site.leave_not_names (h : x.works.Covers z) (a : ActId) : ¬ (x.leave m z st c).works.plant.Names a (.zone z) :=
  ((x.depart_covers m z c st h).follow (x.leave_spares_left m z c st).works).not_names (x.leave_ctx m z c st) a

theorem Site.leave_order_of_nil (h : x.ic.fireOrder = []) : (x.leave m z st c).ic.fireOrder = [] := by
  rw [Site.leave_ic]
  obtain ⟨k, -⟩ | ⟨-, e⟩ := x.ic.leave_cases z st
  · rw [h] at k; cases k
  · rw [e, Incident.remove, h]; rfl

end

/-- Settles O27: a zone that is not HELD_OFF already leaves both lists, and what follows a change of the fire order follows. -/
theorem offHoldsTheZoneOutOfFireMode : Obligations.OffHoldsTheZoneOutOfFireMode := by
  intro s n z
  dsimp only
  intro hs hz hp
  have running := s.mode_of_taking _ hs
  rw [exec_setZoneMode_accepted s hz hp hs]
  have done := s.completes .ff (fun m x => x.setMode m z .off) []
  have ready := s.readied .ff z .ff (fun r => { r with ffMode := .off }) fun _ => rfl
  have minor := s.readied_minor .ff z .ff (fun r => { r with ffMode := .off }) (fun _ => rfl) (fun _ => rfl)
    (fun _ => rfl) fun _ => rfl
  have same : (fun m x => Site.setMode m z .off x) s.pmc (s.supervise .ff).site =
    Site.holdOff s.pmc z (((s.supervise .ff).site.abortTest s.pmc .ff).modZone z fun r => { r with ffMode := .off }) := rfl
  change State.Completes .ff ((fun m x => Site.setMode m z .off x) s.pmc (s.supervise .ff).site) s _ at done
  rw [same] at done
  generalize (((s.supervise .ff).site.abortTest s.pmc .ff).modZone z fun r => { r with ffMode := .off }) = y at *
  refine ⟨fun h => ?_, fun h => ⟨_, rfl, done.accepted, ?_⟩⟩
  · rw [State.onSite_of_site s _ _ (same.trans (if_pos h)) ready.order]
  have left : y.holdOff s.pmc z = y.leave s.pmc z .heldOff .ffOff := if_neg h
  rw [left] at done
  clear same
  obtain ⟨-, site, -, stands⟩ := done
  generalize ((s.supervise .ff).onSite _).reply _ _ = t at *
  obtain ⟨st, hrec⟩ := ready.record
  obtain ⟨unordered, unlocked⟩ := y.leave_not_mem s.pmc z .ffOff .heldOff
  simp only [State.zone, State.plant, State.incident, site]
  refine ⟨?_, unordered, unlocked, y.leave_ctx s.pmc z .ffOff .heldOff, fun _ right a e he ho => ?_, ?_, fun ho hl => ?_,
    fun consistent ho a rest e => ?_⟩
  · rw [Site.leave_zone_same, hrec]
  · exact y.leave_not_names s.pmc z .ffOff .heldOff (ready.covers ((right running).covers z)) a ⟨e, he, ho⟩
  · refine stands ?_
    by_cases ho : s.site.ic.fireOrder = []
    · exact .inr (y.leave_order_of_nil s.pmc z .ffOff .heldOff (ready.order.trans ho))
    · exact .inl ho
  · rw [Site.leave_ic]
    obtain ⟨order, rank⟩ := y.ic.leave_ends z .heldOff (ready.order.trans ho) (ready.locked.trans hl)
    rw [order]
    exact ⟨rfl, rank⟩
  · have sound := ((Site.consistent_iff _).mp (minor.holds (consistent running)).1).1.sound
    rw [Site.zone, Site.leave_ic]
    exact sound.leave_leads .heldOff (ready.order.trans ho) (ready.locked.trans e)

end Sys2Proof.Machine
end


section
/-!
SUPPORT. Ranks, re-evaluation, and the zones that a purge expiry or a SET ZONE MODE of another zone takes from the locked-out list:
O30.
-/

namespace Sys2Proof.Machine

/-! ### The configuration stands -/

section
variable (ic : Incident) (z : ZoneId) (st : ZoneState) (head : Option ZoneId)

theorem Incident.readmit_cfg : (ic.readmit z).cfg = ic.cfg := by
  obtain ⟨-, e⟩ | ⟨-, e⟩ := ic.readmit_cases z <;> rw [e]
  exact ic.enroll_cfg z .alarm

theorem Incident.reEvaluate_cfg : ic.reEvaluate.cfg = ic.cfg := by
  unfold Incident.reEvaluate
  generalize ic.lockedOut = l
  induction l generalizing ic with
  | nil => rfl
  | cons z l ih => exact (ih _).trans (ic.readmit_cfg z)

theorem Incident.afterOrder_cfg : (ic.afterOrder head).cfg = ic.cfg := by
  unfold Incident.afterOrder
  split
  · exact Incident.reEvaluate_cfg _
  · split
    · rfl
    · exact ic.reEvaluate_cfg

theorem Incident.leave_cfg : (ic.leave z st).cfg = ic.cfg := by
  obtain ⟨-, e⟩ | ⟨-, e⟩ := ic.leave_cases z st <;> rw [e]
  · exact Incident.afterOrder_cfg _ _
  · rfl

end

/-! ### A zone that another zone's request takes from the locked-out list -/

/-- Zone `z`, taken from the locked-out list of `x`, has been admitted in `y` (R17, R20). -/
def Site.Admits (m : Pmc) (z : ZoneId) (x y : Site) : Prop :=
  z ∈ x.ic.lockedOut → z ∉ y.ic.lockedOut → y.Admitted m z ∧ y.ic.cfg = x.ic.cfg

section
variable (m : Pmc) (x : Site) (y z : ZoneId) (c : ZoneCause) (st : ZoneState) (head : Option ZoneId)

/-- A change after which the zone is still locked out takes none. -/
theorem Site.Admits.of_locked {m : Pmc} {x y : Site} {z : ZoneId} (h : z ∈ x.ic.lockedOut → z ∈ y.ic.lockedOut) :
    x.Admits m z y :=
  fun hz hn => absurd (h hz) hn

theorem Site.afterOrder_admits (hl : x.ic.lockedOut.Nodup) : x.Admits m z (x.afterOrder m head) := fun hz hn =>
  ⟨x.afterOrder_admitted m z head hl hz hn, by rw [Site.afterOrder_ic, Incident.afterOrder_cfg]⟩

theorem Site.leave_admits (hl : x.ic.lockedOut.Nodup) (h : z ≠ y) : x.Admits m z (x.leave m y st c) := fun hz hn =>
  ⟨x.leave_admitted m z y c st hl h hz hn, by rw [Site.leave_ic, Incident.leave_cfg]⟩

/-- A change that takes no zone and keeps the configuration may come before. -/
theorem Site.Admits.after {m : Pmc} {u v w : Site} {z : ZoneId} (h : v.Admits m z w)
    (hl : z ∈ u.ic.lockedOut → z ∈ v.ic.lockedOut) (hc : v.ic.cfg = u.ic.cfg) : u.Admits m z w := fun hz hn =>
  let ⟨a, e⟩ := h (hl hz) hn
  ⟨a, e.trans hc⟩

theorem Site.purgeExpiry_admits (w : x.Whole) (h : z ≠ y) : x.Admits m z (x.purgeExpiry m y) := by
  unfold Site.purgeExpiry
  dsimp only
  split
  case h_1 d _ _ =>
    have left := (x.onWorks fun w => w.onPlant fun p => p.reach d).leave_admits m y z .purgeExpiry .normal
      w.sound.lockedOnce h
    exact left.after (u := x) id rfl
  case h_2 => exact .of_locked id

theorem Site.extract_admits (w : x.Whole) (he : x.ic.Emptied) (h : z ≠ y) : x.Admits m z (x.extract m y) := by
  have became : z ∈ x.ic.lockedOut → z ∈ (x.becomeActive m y .ff .ffExtract).ic.lockedOut := fun hz => by
    rw [Site.becomeActive_ic, Incident.enroll_lockedOut]
    exact List.mem_filter.mpr ⟨hz, by simpa using h⟩
  obtain ⟨-, -, e⟩ | ⟨-, -, e⟩ | ⟨-, -, ho, -⟩ | ⟨-, -, -, e⟩ := x.extract_cases m y
  · rw [e]; exact .of_locked id
  · have locked : ((x.takeFf y).move m y .ffExtract).ic.lockedOut = x.ic.lockedOut := by
      rw [Site.takeFf_move_ic, Incident.enlist_lockedOut]
    rw [e]
    refine (Site.afterOrder_admits m _ z _ (by rw [locked]; exact w.sound.lockedOnce)).after (by rw [locked]; exact id) ?_
    rw [Site.takeFf_move_ic, Incident.enlist_cfg]
  · intro hz
    rw [he ho] at hz
    cases hz
  · rw [e]
    refine (Site.afterOrder_admits m _ z _ ?_).after became (x.ic.enroll_cfg y .ff)
    rw [Site.becomeActive_ic, Incident.enroll_lockedOut]
    exact w.sound.lockedOnce.filter _

theorem Site.takeIn_admits (he : x.ic.Emptied) (h : z ≠ y) : x.Admits m z (x.takeIn m y c) := by
  have kept (hz : z ∈ x.ic.lockedOut) : z ∈ x.ic.lockedOut.filter (· != y) := List.mem_filter.mpr ⟨hz, by simpa using h⟩
  obtain ⟨ho, -⟩ | ⟨-, -, e⟩ | ⟨-, -, e⟩ := x.takeIn_cases m y c
  · intro hz
    rw [he ho] at hz
    cases hz
  · rw [e]
    exact .of_locked fun hz => by rw [Site.becomeActive_ic, Incident.enroll_lockedOut]; exact kept hz
  · rw [e]
    exact .of_locked fun hz => List.mem_append_left _ (kept hz)

theorem Site.handBack_admits (w : x.Whole) (he : x.ic.Emptied) (h : z ≠ y) : x.Admits m z (x.handBack m y) := by
  obtain ⟨-, -, e⟩ | ⟨-, -, e⟩ | ⟨-, -, e⟩ | ⟨-, -, e⟩ := x.handBack_cases m y <;> rw [e]
  · exact .of_locked id
  · exact x.takeIn_admits m y z _ he h
  · have locked : ((x.surrender y).move m y .ffAuto).ic.lockedOut = x.ic.lockedOut := by
      rw [Site.move_ic, Incident.place_lockedOut, Site.surrender_lockedOut]
    have cfg : ((x.surrender y).move m y .ffAuto).ic.cfg = x.ic.cfg := by
      rw [Site.move_ic, Site.surrender]
      split <;> rfl
    exact (Site.afterOrder_admits m _ z _ (by rw [locked]; exact w.sound.lockedOnce)).after (by rw [locked]; exact id) cfg
  · exact .of_locked id

theorem Site.holdOff_admits (w : x.Whole) (h : z ≠ y) : x.Admits m z (x.holdOff m y) := by
  unfold Site.holdOff
  split
  · exact .of_locked id
  · exact x.leave_admits m y z _ _ w.sound.lockedOnce h

end

/-! ### The commands -/

section
variable (s t : State) (y z : ZoneId)

theorem exec_purgeExpiry_admits (hr : s.mode = .running) (w : s.site.Whole) (e : exec (.purgeExpiry y) s = .next t)
    (h : z ≠ y) : s.site.Admits s.pmc z t.site := by
  have running : s.isRunning = true := by simp [State.isRunning, hr]
  have brought : exec (.purgeExpiry y) s = .next (s.whenRunning fun s => s.onSite fun m x => x.purgeExpiry m y) := rfl
  rw [brought, Host.Outcome.next.injEq, State.whenRunning, if_pos running] at e
  rw [← e, State.onSite_site]
  exact s.site.purgeExpiry_admits s.pmc y z w h

/-- The three modes of SET ZONE MODE, the test aborted and the mode recorded before. -/
theorem State.setMode_admits (mode : ZoneMode) (c : s.site.Consistent) (h : z ≠ y) :
    s.site.Admits s.pmc z ((s.supervise .ff).site.setMode s.pmc y mode) := by
  have ready := s.readied .ff y .ff (fun r => { r with ffMode := mode }) fun _ => rfl
  have minor := s.readied_minor .ff y .ff (fun r => { r with ffMode := mode }) (fun _ => rfl) (fun _ => rfl)
    (fun _ => rfl) fun _ => rfl
  obtain ⟨whole, emptied⟩ := (Site.consistent_iff _).mp (minor.holds c).1
  refine Site.Admits.after ?_ (by rw [ready.locked]; exact id) ready.cfg
  unfold Site.setMode
  dsimp only
  generalize Site.modZone .. = u at *
  cases mode with
  | extract => exact u.extract_admits s.pmc y z whole emptied h
  | off => exact u.holdOff_admits s.pmc y z whole h
  | auto => exact u.handBack_admits s.pmc y z whole emptied h

theorem exec_setZoneMode_admits (hr : s.site.Consistent) {n : Nat} (hy : zoneOfNumber n = some y) (mode : ZoneMode)
    (e : exec (.setZoneMode .ff (.fields ⟨n, mode⟩)) s = .next t) (h : z ≠ y) : s.site.Admits s.pmc z t.site := by
  have unchanged (u : State) (hu : u.site.ic = s.site.ic)
      (k : exec (.setZoneMode .ff (.fields ⟨n, mode⟩)) s = .next u) : s.site.Admits s.pmc z t.site := by
    rw [k, Host.Outcome.next.injEq] at e
    exact .of_locked (by rw [← e, hu]; exact id)
  cases ht : s.taking .ff with
  | false => exact unchanged s rfl (congrArg _ (s.serve_ignored .ff _ _ ht))
  | true =>
    cases hp : (s.site.ic.config y).present with
    | false =>
      refine unchanged _ ?_ (exec_setZoneMode_of_owner s _ _ _ ht (setZoneModeOwner_absent _ n mode hy ?_))
      · rw [State.reply_site, State.supervise_ic]
      · rwa [State.supervise_ic]
    | true =>
      rw [exec_setZoneMode_accepted s hy hp ht, Host.Outcome.next.injEq] at e
      rw [← e, (s.completes .ff (fun m x => x.setMode m y mode) []).site]
      exact s.setMode_admits y z mode hr h

end

/-- Settles O30: the giving of a rank, the walk of re-evaluation, the lead zone after every command, and the admitted zone. -/
theorem ranksAndReEvaluationKeepTheirOrder : Obligations.RanksAndReEvaluationKeepTheirOrder := by
  refine ⟨fun ic once counter given => ?_, fun m x once locked counter given apart => ?_,
    fun i s t l hr consistent e before after z hz => ?_, fun i s t y z hr consistent e hi hne hz hn => ?_⟩
  · have ranked : ic.Ranked := ⟨once, counter, given⟩
    refine ⟨ranked.nextRank_rank_le, ic.nextRank_fireOrder, ranked.rankOf_lt_nextRank, fun h => ic.nextRank_of_ne h.ne,
      fun h => ⟨by rw [ic.nextRank_of_eq h], fun y hy z hz => ranked.nextRank_mono y z hy hz⟩⟩
  · dsimp only
    rw [Site.reEvaluate_ic]
    exact Incident.Ranked.reEvaluate_judged ⟨once, counter, given⟩ locked apart
  · obtain ⟨u, eu, brings⟩ := exec_brings s i hr
    rw [e, Host.Outcome.next.injEq] at eu
    subst eu
    obtain brings | ⟨same, -⟩ := brings
    · obtain ⟨-, -, same | judged⟩ := brings.holds (consistent hr)
      · exact absurd (same.symm.trans after) before
      · have incompatible := judged z hz
        rw [Incident.compatible, after] at incompatible
        simpa using incompatible
    · rw [same] at after
      exact absurd after before
  · have admits : s.site.Admits s.pmc z t.site := by
      obtain rfl | ⟨n, mode, rfl, hy⟩ := hi
      · exact exec_purgeExpiry_admits s t y z hr ((Site.consistent_iff _).mp (consistent hr)).1 e hne
      · exact exec_setZoneMode_admits s t y z (consistent hr) hy mode e hne
    obtain ⟨⟨state, origin, order, c, hc, fresh⟩, cfg⟩ := admits hz hn
    have config : t.site.ic.config z = s.site.ic.config z := by rw [Incident.config, cfg, Incident.config]
    exact ⟨state, origin, order, c, hc, fresh.cls, fresh.step, fresh.outcomes, config ▸ fresh.plan⟩

end Sys2Proof.Machine
end


section
/-!
SUPPORT. What plan memory holds through every step: only the completion of an operation writes the array, and a reset that cuts
one off: O13.
-/

namespace Sys2Proof.Machine

/-! ### The contents of plan memory -/

/-- What plan memory holds: its bytes, and the positions and commit mark of each block (R127). -/
def Pmc.contents (m : Pmc) : List Host.Cell × (BlockId → Table PosCond 32 × Option CommitMark) :=
  (m.mem, fun b => ((m.block b).conds, (m.block b).commitMark))

section
variable (m n : Pmc) (a b : BlockId)

theorem Pmc.sameContents_of_contents {m n : Pmc} (h : m.contents = n.contents) : m.SameContents n b := by
  obtain ⟨hm, hb⟩ := Prod.ext_iff.mp h
  obtain ⟨hc, hk⟩ := Prod.ext_iff.mp (congrFun hb b)
  exact ⟨hc, hk, fun k _ => congrArg (Memory.read · k) hm⟩

theorem Pmc.contents_eq {m n : Pmc} (hm : m.mem = n.mem) (hc : ∀ c, (m.block c).conds = (n.block c).conds)
    (hk : ∀ c, (m.block c).commitMark = (n.block c).commitMark) : m.contents = n.contents :=
  Prod.ext hm (funext fun c => Prod.ext (hc c) (hk c))

/-- A change of one block that leaves its positions and its commit mark. -/
theorem Pmc.modBlock_contents (g : Block → Block) (hc : (g (m.block a)).conds = (m.block a).conds)
    (hk : (g (m.block a)).commitMark = (m.block a).commitMark) : (m.modBlock a g).contents = m.contents := by
  refine Pmc.contents_eq rfl (fun c => ?_) fun c => ?_ <;> by_cases e : c = a
  · rw [e, Pmc.modBlock_block_same, hc]
  · rw [Pmc.modBlock_block_other _ _ _ _ e]
  · rw [e, Pmc.modBlock_block_same, hk]
  · rw [Pmc.modBlock_block_other _ _ _ _ e]

theorem Pmc.lockIfOff_contents : (m.lockIfOff a).contents = m.contents := by
  unfold Pmc.lockIfOff
  split
  · rfl
  · exact m.modBlock_contents a _ rfl rfl

theorem Pmc.suspendOp_contents (now : Nat) : (m.suspendOp now).contents = m.contents := by
  unfold Pmc.suspendOp
  split
  · exact m.lockIfOff_contents _
  · rfl

theorem Pmc.incidentStart_contents (now : Nat) : (m.incidentStart now).contents = m.contents := by
  unfold Pmc.incidentStart
  split
  · exact m.suspendOp_contents now
  · rfl
  · rfl

/-- The commissioning input changes locks alone (R141). -/
theorem Pmc.commissioningOff_block :
    m.commissioningOff.block b = { m.block b with lock := .locked } ∨ m.commissioningOff.block b = m.block b := by
  simp only [Pmc.commissioningOff, Pmc.block, Table.look_of]
  exact ite_eq_or_eq _ _ _

theorem Pmc.commissioningOff_contents : m.commissioningOff.contents = m.contents := by
  refine Pmc.contents_eq (by simp only [Pmc.commissioningOff]) (fun c => ?_) fun c => ?_ <;>
    obtain e | e := m.commissioningOff_block c <;> rw [e]

/-- Classification changes the states of the blocks alone (R143). -/
theorem Pmc.reclassify_contents : m.reclassify.contents = m.contents := by
  refine Pmc.contents_eq (by simp only [Pmc.reclassify]) (fun c => ?_) fun c => ?_ <;>
    simp only [Pmc.reclassify, Pmc.block, Table.look_of]

end

/-! ### Operations of the array -/

/-- The byte at another address is read as before, whatever the form of the list. -/
theorem Memory.read_write_other (m : List Host.Cell) {a k : Nat} (v : Byte) (h : k ≠ a) :
    Memory.read (Memory.write m a v) k = Memory.read m k := by
  induction m with
  | nil => by_cases hv : v = Memory.unlisted <;> simp [Memory.write, Memory.read, hv, h.symm]
  | cons c r ih =>
    obtain ⟨j, u⟩ := c
    unfold Memory.write
    by_cases below : a < j
    · by_cases hv : v = Memory.unlisted <;> simp [below, hv, Memory.read, h.symm]
    · by_cases here : a = j
      · subst here
        by_cases hv : v = Memory.unlisted <;> simp [hv, Memory.read, h.symm]
      · simp [below, here, Memory.read, ih]

theorem Memory.read_writeAll_other (vs : List Byte) (m : List Host.Cell) (a : Nat) {k : Nat}
    (h : k < a ∨ a + vs.length ≤ k) : Memory.read (Memory.writeAll m a vs) k = Memory.read m k := by
  induction vs generalizing m a with
  | nil => rfl
  | cons v vs ih =>
    rw [List.length_cons] at h
    rw [Memory.writeAll, ih _ _ (by omega), Memory.read_write_other m v (by omega)]

section
variable (m : Pmc) {a b : BlockId} (h : b ≠ a)
include h

/-- A change of the bytes and of one block leaves the contents of every block whose bytes read as before. -/
theorem Pmc.sameContents_of_put {n : Pmc} {y : Block} (hb : n.blocks = m.blocks.put a y)
    (hm : ∀ k, k / 4096 = b.val → Memory.read n.mem k = Memory.read m.mem k) : n.SameContents m b := by
  have block : n.block b = m.block b := by rw [Pmc.block, hb, Table.look_put_other _ _ _ _ h, Pmc.block]
  exact ⟨by rw [block], by rw [block], hm⟩

theorem Pmc.storeRecord_spares (q : PosId) (c : PosCond) (record : List Byte) :
    (m.storeRecord a q c record).SameContents m b := by
  refine m.sameContents_of_put h rfl fun k hk => Memory.read_writeAll_other _ _ _ ?_
  have apart : b.val ≠ a.val := fun e => h (Fin.ext e)
  have within := q.isLt
  have length : (record.take 128).length ≤ 128 := by simp
  simp only [recordBase]
  omega

theorem Pmc.erased_spares (verified : Bool) : (m.erased a verified).SameContents m b := by
  have apart : b.val ≠ a.val := fun e => h (Fin.ext e)
  have outside (k : Nat) (hk : k / 4096 = b.val) : Memory.read (Memory.eraseBlock m.mem a) k = Memory.read m.mem k := by
    rw [Memory.read_eraseBlock, if_neg (by omega)]
  cases verified <;> exact m.sameContents_of_put h rfl outside

theorem Pmc.committed_spares : (m.committed a).SameContents m b := m.sameContents_of_put h rfl fun _ _ => rfl

end

theorem Pmc.SameContents.trans {k m n : Pmc} {b : BlockId} (h : k.SameContents m b) (i : m.SameContents n b) :
    k.SameContents n b :=
  ⟨h.1.trans i.1, h.2.1.trans i.2.1, fun a ha => (h.2.2 a ha).trans (i.2.2 a ha)⟩

theorem Pmc.SameContents.withCtrl {m n : Pmc} {b : BlockId} (h : m.SameContents n b) (c : Ctrl) :
    ({ m with ctrl := c } : Pmc).SameContents n b := h

/-- A reset that cuts an operation off changes the contents of its block alone (R143). -/
theorem Pmc.cutOff_spares (m : Pmc) (draw : Nat) {b : BlockId} (h : m.ctrl.target ≠ some b) :
    (m.cutOff draw).SameContents m b := by
  have other {op : ArrayOp} (e : m.ctrl.target = some op.target) : b ≠ op.target := fun k => h (k ▸ e)
  unfold Pmc.cutOff
  cases hc : m.ctrl with
  | ready | eraseSetup => exact ⟨rfl, rfl, fun _ _ => rfl⟩
  | busy op d | suspended op d =>
    have apart := other (op := op) (by rw [hc]; rfl)
    refine Pmc.SameContents.withCtrl ?_ .ready
    cases op with
    | erase a => exact ⟨rfl, rfl, fun _ _ => rfl⟩
    | write a q r => exact m.storeRecord_spares apart q .incomplete _
    | commit a => exact m.sameContents_of_put apart rfl fun _ _ => rfl

/-! ### Requests -/

/-- An owner that writes nothing to the array: a request begins an operation, and its completion writes. -/
def Writeless (o : Owner) : Prop := ∀ s : State, (o s).1.pmc.contents = s.pmc.contents

section
variable {α : Type} {o : Owner} (e : Reason)

theorem writeless_of_same (h : ∀ s, (o s).1.pmc = s.pmc) : Writeless o := fun s => congrArg Pmc.contents (h s)

theorem writeless_refuse : Writeless (refuse e) := writeless_of_same fun _ => rfl

theorem writeless_withFields {b : Body α} {k : α → Owner} (h : ∀ a, Writeless (k a)) : Writeless (withFields b k) := by
  cases b with
  | fields a => exact h a
  | malformed => exact writeless_refuse _

theorem writeless_withId {a : Option α} {k : α → Owner} (h : ∀ a, Writeless (k a)) : Writeless (withId a k) := by
  cases a with
  | some a => exact h a
  | none => exact writeless_refuse _

theorem writeless_require (ok : State → Bool) (h : Writeless o) : Writeless (require ok e o) := by
  intro s
  obtain ⟨-, k⟩ | ⟨-, k⟩ := require_cases s ok e o <;> rw [k]
  exact h s

theorem writeless_unbroken (b : Option BlockId) (h : Writeless o) : Writeless (unbroken b o) := by
  intro s
  unfold unbroken
  split
  · split
    · exact h s
    · rfl
  · exact h s

theorem writeless_whenIdle (h : Writeless o) : Writeless (whenIdle o) := writeless_require _ _ h
theorem writeless_whenCleared (h : Writeless o) : Writeless (whenCleared o) := writeless_require _ _ h
theorem writeless_whenCommissioning (h : Writeless o) : Writeless (whenCommissioning o) := writeless_require _ _ h
theorem writeless_whenNoFire (h : Writeless o) : Writeless (whenNoFire o) := writeless_require _ _ h
theorem writeless_whenNotBusy (h : Writeless o) : Writeless (whenNotBusy o) := writeless_require _ _ h

theorem State.serve_contents (s : State) (p : Port) (permitted : Port → Bool) (h : Writeless o) :
    (s.serve permitted o p).pmc.contents = s.pmc.contents :=
  s.serve_keeps p permitted o (fun t => t.pmc.contents) (by rw [State.supervise_pmc]) (fun _ _ => rfl) h

end

theorem State.onSite_contents (s : State) (f : Pmc → Site → Site) : (s.onSite f).pmc.contents = s.pmc.contents := by
  rw [State.onSite_pmc]
  split
  · exact s.pmc.incidentStart_contents _
  · rfl

theorem writeless_onSite (f : Pmc → Site → Site) : Writeless fun s => accept (s.onSite f) := fun s => s.onSite_contents f

theorem writeless_settingAsked (b : Body SettingArgs) {k : ActId → Asked → Owner} (h : ∀ a q, Writeless (k a q)) :
    Writeless (settingAsked b k) := by
  refine writeless_withFields fun x => writeless_withId fun a s => ?_
  split
  · exact h _ _ s
  · rfl

theorem writeless_clearFaultOwner (b : Body Nat) : Writeless (clearFaultOwner b) := by
  refine writeless_withFields fun n => writeless_withId fun a s => ?_
  split <;> rfl

theorem writeless_reported (p : Port) (b : Body Nat) {act : Line → ZoneId → Owner} (h : ∀ l z, Writeless (act l z)) :
    Writeless (reported p b act) := by
  refine writeless_withFields fun n => writeless_withId fun z => writeless_require _ _ ?_
  cases p with
  | alarm l => exact writeless_require _ _ (h l z)
  | ff | bl => exact writeless_refuse _

theorem writeless_setZoneModeOwner (b : Body ZoneModeArgs) : Writeless (setZoneModeOwner b) :=
  writeless_withFields fun _ => writeless_withId fun _ => writeless_require _ _ <| writeless_onSite _

theorem writeless_testZoneOwner (b : Body TestArgs) : Writeless (testZoneOwner b) :=
  writeless_withFields fun _ => writeless_withId fun _ => writeless_require _ _ <| writeless_require _ _ <|
    writeless_require _ _ <| writeless_require _ _ <| writeless_require _ _ <| writeless_require _ _ <| writeless_onSite _

theorem writeless_restartOwner (b : Body Unit) : Writeless (restartOwner b) :=
  writeless_withFields fun _ => writeless_require _ _ <| writeless_require _ _ <| writeless_require _ _ <|
    writeless_of_same fun _ => rfl

/-- ERASE SETUP and the checks of R132 leave the array. -/
theorem writeless_eraseSetupOwner (b : Body Nat) : Writeless (eraseSetupOwner b) :=
  writeless_withFields fun _ => writeless_withId fun _ => writeless_unbroken _ <| writeless_whenIdle <|
    writeless_whenCleared <| writeless_whenCommissioning fun _ => rfl

/-- An erase begins with its mark and its state (R134). -/
theorem State.beginErase_contents (s : State) (b : BlockId) : (s.beginErase b).pmc.contents = s.pmc.contents :=
  s.pmc.modBlock_contents b (fun x => { x with eraseMark := true, state := .erasing }) rfl rfl

/-- A write begins with its block OPEN (R136). -/
theorem State.beginWrite_contents (s : State) (b : BlockId) (q : PosId) (record : List Byte) :
    (s.beginWrite b q record).pmc.contents = s.pmc.contents :=
  s.pmc.modBlock_contents b (fun x => { x with state := .opened }) rfl rfl

theorem writeless_eraseConfirmOwner (b : Body Nat) : Writeless (eraseConfirmOwner b) := by
  refine writeless_withFields fun _ => writeless_withId fun b => writeless_unbroken _ fun s => ?_
  have confirm : Writeless <| whenIdle <| whenCleared <| whenCommissioning fun t =>
      if !(s.pmc.ctrl == .eraseSetup b) then flagged .sequence .sequence t
      else if t.incident || t.testRunning then flagged .permission .permission t
      else if (t.pmc.block b).lock != .unlocked then flagged .lock .lock t
      else accept (t.beginErase b) := by
    refine writeless_whenIdle <| writeless_whenCleared <| writeless_whenCommissioning fun t => ?_
    split
    · rfl
    · split
      · rfl
      · split
        · rfl
        · exact t.beginErase_contents b
  refine (confirm _).trans ?_
  split <;> rfl

theorem writeless_writeRecordOwner (b : Body WriteArgs) : Writeless (writeRecordOwner b) :=
  writeless_withFields fun _ => writeless_withId fun b => writeless_withId fun _ => writeless_unbroken _ <|
    writeless_whenIdle <| writeless_whenCleared <| writeless_whenCommissioning <| writeless_whenNoFire fun s => by
      split
      · exact s.beginWrite_contents b _ _
      · rfl

theorem writeless_commitOwner (b : Body Nat) : Writeless (commitOwner b) :=
  writeless_withFields fun _ => writeless_withId fun _ => writeless_unbroken _ <| writeless_whenIdle <|
    writeless_whenCleared <| writeless_whenCommissioning <| writeless_whenNoFire fun s => by
      split
      · rfl
      · split
        · rfl
        · split <;> rfl

theorem writeless_suspendOwner (b : Body Unit) : Writeless (suspendOwner b) :=
  writeless_withFields fun _ => writeless_unbroken _ fun s => by
    split
    · exact s.pmc.suspendOp_contents _
    · rfl

theorem writeless_resumeOwner (b : Body Unit) : Writeless (resumeOwner b) :=
  writeless_withFields fun _ => writeless_unbroken _ fun s => by
    split
    · refine (writeless_whenNoFire <| writeless_whenCommissioning fun s => ?_) s
      split <;> rfl
    · rfl

theorem State.setLock_contents (s : State) (b : BlockId) (l : LockState) : (s.setLock b l).pmc.contents = s.pmc.contents :=
  s.pmc.modBlock_contents b _ rfl rfl

theorem writeless_lockOwner (b : Body Nat) : Writeless (lockOwner b) :=
  writeless_withFields fun _ => writeless_withId fun _ => writeless_unbroken _ <| writeless_whenNotBusy fun s =>
    s.setLock_contents _ _

theorem writeless_lockDownOwner (b : Body Nat) : Writeless (lockDownOwner b) :=
  writeless_withFields fun _ => writeless_withId fun _ => writeless_unbroken _ <| writeless_whenNotBusy fun s =>
    s.setLock_contents _ _

theorem writeless_unlockOwner (b : Body Nat) : Writeless (unlockOwner b) :=
  writeless_withFields fun _ => writeless_withId fun _ => writeless_unbroken _ <| writeless_whenCommissioning <|
    writeless_whenNotBusy fun s => by
      split
      · rfl
      · exact s.setLock_contents _ _

theorem writeless_readReportsOwner (p : Port) (b : Body Nat) : Writeless (readReportsOwner p b) := by
  refine writeless_withFields fun n s => ?_
  split
  · split <;> rfl
  · rfl

theorem writeless_zoneTableOwner (b : Body ZoneReadArgs) : Writeless (zoneTableOwner b) := by
  refine writeless_withFields fun x => ?_
  cases x with
  | range first count => exact writeless_withId fun _ _ => rfl
  | step n k =>
    refine writeless_withId fun z s => ?_
    split <;> rfl

/-- No request writes to the array. -/
theorem execRequest_contents (i : Instr) (s : State) :
    ∃ t, execRequest i s = .next t ∧ t.pmc.contents = s.pmc.contents := by
  have served (permitted : Port → Bool) (o : Owner) (p : Port) (h : Writeless o) :
      ∃ t, (.next (s.serve permitted o p) : Host.Outcome State Fault Refusal) = .next t
        ∧ t.pmc.contents = s.pmc.contents :=
    ⟨_, rfl, s.serve_contents p permitted h⟩
  have plain {α : Type} (b : Body α) (k : α → Owner) (h : ∀ a s, (k a s).1.pmc = s.pmc) : Writeless (withFields b k) :=
    writeless_withFields fun a => writeless_of_same (h a)
  cases i with
  | poll p b => exact served _ _ p (plain b _ fun _ _ => rfl)
  | ackRestart p b => exact served _ _ p (plain b _ fun _ _ => rfl)
  | alarm p b => exact served _ _ p (writeless_reported p b fun _ _ => writeless_onSite _)
  | restore p b => exact served _ _ p (writeless_reported p b fun _ _ => writeless_onSite _)
  | setZoneMode p b => exact served _ _ p (writeless_setZoneModeOwner b)
  | setOverride p b => exact served _ _ p (writeless_settingAsked b fun _ _ _ => rfl)
  | clearFault p b => exact served _ _ p (writeless_clearFaultOwner b)
  | setNormal p b => exact served _ _ p (writeless_settingAsked b fun _ _ => writeless_require _ _ fun _ => rfl)
  | testZone p b => exact served _ _ p (writeless_testZoneOwner b)
  | abortTest p b => exact served _ _ p (writeless_withFields fun _ => writeless_require _ _ <| writeless_onSite _)
  | restartController p b => exact served _ _ p (writeless_restartOwner b)
  | eraseSetup p b => exact served _ _ p (writeless_eraseSetupOwner b)
  | eraseConfirm p b => exact served _ _ p (writeless_eraseConfirmOwner b)
  | writeRecord p b => exact served _ _ p (writeless_writeRecordOwner b)
  | commit p b => exact served _ _ p (writeless_commitOwner b)
  | suspend p b => exact served _ _ p (writeless_suspendOwner b)
  | resume p b => exact served _ _ p (writeless_resumeOwner b)
  | lock p b => exact served _ _ p (writeless_lockOwner b)
  | lockDown p b => exact served _ _ p (writeless_lockDownOwner b)
  | unlock p b => exact served _ _ p (writeless_unlockOwner b)
  | readRecord p b =>
    exact served _ _ p (writeless_withFields fun _ => writeless_withId fun _ => writeless_withId fun _ =>
      writeless_require _ _ fun _ => rfl)
  | readBlockStates p b => exact served _ _ p (plain b _ fun _ _ => rfl)
  | planStatus p b => exact served _ _ p (plain b _ fun _ _ => rfl)
  | clearPlanStatus p b => exact served _ _ p (writeless_withFields fun _ _ => rfl)
  | queryGeometry p b => exact served _ _ p (plain b _ fun _ _ => rfl)
  | readReports p b => exact served _ _ p (writeless_readReportsOwner p b)
  | zoneTableRead p b => exact served _ _ p (writeless_zoneTableOwner b)
  | actuatorTableRead p b => exact served _ _ p (writeless_withFields fun _ => writeless_withId fun _ _ => rfl)
  | groupTableRead p b => exact served _ _ p (writeless_withFields fun _ => writeless_withId fun _ _ => rfl)
  | startQueueRead p b => exact served _ _ p (plain b _ fun _ _ => rfl)
  | testRecordRead p b => exact served _ _ p (writeless_withFields fun _ => writeless_withId fun _ _ => rfl)
  | linkTableRead p b => exact served _ _ p (plain b _ fun _ _ => rfl)
  | unknownRequestCode p c => exact served _ _ p (writeless_refuse _)
  | _ => exact ⟨s, rfl, rfl⟩

/-! ### Every step -/

/-- From `s` to `t` a block keeps its contents unless it is the target of an operation that is in progress, or that is cut off
by a reset (R130, R143). -/
def State.Spares (s t : State) : Prop :=
  ∀ b, t.pmc.SameContents s.pmc b ∨ s.pmc.ctrl.target = some b ∧ (s.pmc.ctrl.isBusy = true ∨ t.mode ≠ .running)

section
variable {s t : State}

theorem State.Spares.of_contents (h : t.pmc.contents = s.pmc.contents) : s.Spares t := fun b =>
  .inl (Pmc.sameContents_of_contents b h)

theorem State.Spares.of_same (h : t.pmc = s.pmc) : s.Spares t := .of_contents (congrArg Pmc.contents h)

theorem State.Spares.refl (s : State) : s.Spares s := .of_same rfl

theorem State.whenRunning_spares (g : State → State) (h : s.Spares (g s)) : s.Spares (s.whenRunning g) := by
  unfold State.whenRunning
  split
  · exact h
  · exact .refl s

end

section
variable (s : State)

theorem State.endOp_pmc (k : OpKind) (b : BlockId) (d : Nat) (g : Pmc → Pmc) :
    (s.endOp k b d g).pmc = { (g s.pmc).lockIfOff b with ctrl := .ready } := rfl

/-- The end of an operation writes to its block alone (R130). -/
theorem State.endOp_spares (k : OpKind) (op : ArrayOp) (d e : Nat) (g : Pmc → Pmc) (h : s.pmc.ctrl = .busy op d)
    (hg : ∀ b, b ≠ op.target → (g s.pmc).SameContents s.pmc b) : s.Spares (s.endOp k op.target e g) := by
  intro b
  by_cases hb : b = op.target
  · exact .inr ⟨by rw [h, hb]; rfl, .inl (by rw [h]; rfl)⟩
  · refine .inl ?_
    rw [State.endOp_pmc]
    have locked := Pmc.sameContents_of_contents b ((g s.pmc).lockIfOff_contents op.target)
    exact (locked.trans (hg b hb)).withCtrl .ready

/-- A reset writes to the block of the operation that it cuts off alone (R143). -/
theorem State.beginStartUp_spares (kind : StartKind) : s.Spares (s.beginStartUp kind) := by
  intro b
  by_cases hb : s.pmc.ctrl.target = some b
  · exact .inr ⟨hb, .inr (by simp [State.beginStartUp])⟩
  · refine .inl ?_
    obtain ⟨conds, mark, reads⟩ := s.pmc.cutOff_spares s.free hb
    refine ⟨?_, ?_, reads⟩
    · simpa only [State.beginStartUp, Pmc.beginStartUp, Pmc.block, Table.look_map] using conds
    · simpa only [State.beginStartUp, Pmc.beginStartUp, Pmc.block, Table.look_map] using mark

theorem State.completeStartUp_spares (kind : StartKind) : s.Spares (s.completeStartUp kind) :=
  .of_contents (by simp only [State.completeStartUp]; exact s.pmc.reclassify_contents)

theorem State.replySent_spares (p : Port) : s.Spares (s.replySent p) := by
  unfold State.replySent
  split
  · dsimp only
    split
    · exact (s.modPort p fun r => { r with rx := .hunting }).beginStartUp_spares .restartRequest
    · exact .of_same rfl
  · exact .refl s

theorem State.silenced_contents (p : Port) : (s.silenced p).pmc.contents = s.pmc.contents := by
  unfold State.silenced
  split
  · rfl
  · rfl
  · rw [State.onSite_contents, State.onWorks_pmc]

theorem State.windowExpiry_spares (p : Port) : s.Spares (s.windowExpiry p) := by
  unfold State.windowExpiry
  dsimp only
  split
  · exact .of_contents (State.silenced_contents _ p)
  · exact .refl s

theorem execCrcFailure_spares (p : Port) : ∃ t, execCrcFailure p s = .next t ∧ s.Spares t := by
  refine ⟨_, rfl, ?_⟩
  split <;> exact .of_same rfl

theorem execRequest_spares (i : Instr) : ∃ t, execRequest i s = .next t ∧ s.Spares t := by
  obtain ⟨t, e, h⟩ := execRequest_contents i s
  exact ⟨t, e, .of_contents h⟩

theorem State.received_spares (p : Port) (x : Received) : ∃ t, s.received p x = .next t ∧ s.Spares t := by
  unfold State.received
  split
  · exact ⟨_, rfl, .of_same rfl⟩
  · exact ⟨_, rfl, .of_same rfl⟩
  · exact execCrcFailure_spares s p
  · split
    · exact execRequest_spares s _
    · exact ⟨_, rfl, .of_same rfl⟩

theorem execByteArriving_spares (p : Port) (b : Byte) (stopBit : Bool) :
    ∃ t, execByteArriving p b stopBit s = .next t ∧ s.Spares t := by
  unfold execByteArriving
  split
  · split
    · exact s.received_spares p _
    · exact s.received_spares p _
    · exact ⟨s, rfl, .refl s⟩
  · exact ⟨s, rfl, .refl s⟩

/-- The completions of an operation (R135 to R137). -/
theorem State.completion_spares :
    (∀ v, ∃ t, execEraseCompletion v s = .next t ∧ s.Spares t) ∧ (∃ t, execWriteCompletion s = .next t ∧ s.Spares t)
      ∧ ∃ t, execCommitCompletion s = .next t ∧ s.Spares t := by
  refine ⟨fun v => ⟨_, rfl, s.whenRunning_spares _ ?_⟩, ⟨_, rfl, s.whenRunning_spares _ ?_⟩,
    ⟨_, rfl, s.whenRunning_spares _ ?_⟩⟩ <;> split
  · rename_i b d h
    exact s.endOp_spares .erase (.erase b) d d _ h fun c hc => s.pmc.erased_spares hc v
  · exact .refl s
  · rename_i b q r d h
    exact s.endOp_spares .write (.write b q r) d d _ h fun c hc => s.pmc.storeRecord_spares hc q .written r
  · exact .refl s
  · rename_i b d h
    exact s.endOp_spares .commit (.commit b) d d _ h fun c hc => s.pmc.committed_spares hc
  · exact .refl s

/-- Every command spares every block but the target of an operation. -/
theorem exec_spares (i : Instr) : ∃ t, exec i s = .next t ∧ s.Spares t := by
  have event (g : State → State) (h : s.Spares (g s)) :
      ∃ t, (.next (s.whenRunning g) : Host.Outcome State Fault Refusal) = .next t ∧ s.Spares t :=
    ⟨_, rfl, s.whenRunning_spares g h⟩
  have onSite (f : Pmc → Site → Site) := event (fun s => s.onSite f) (.of_contents (s.onSite_contents f))
  have onPlant (g : Plant → Plant) := event (fun s => s.onPlant g) (.of_same rfl)
  have onInput (g h : Plant → Plant) :
      ∃ t, (.next (s.onInput g h) : Host.Outcome State Fault Refusal) = .next t ∧ s.Spares t := by
    refine ⟨_, rfl, .of_same ?_⟩
    unfold State.onInput
    split <;> rfl
  have request (i : Instr) (same : exec i s = execRequest i s) : ∃ t, exec i s = .next t ∧ s.Spares t := by
    obtain ⟨t, e, h⟩ := execRequest_spares s i
    exact ⟨t, same.trans e, h⟩
  obtain ⟨erase, write, commit⟩ := s.completion_spares
  cases i with
  | crcFailure p => exact execCrcFailure_spares s p
  | byteArriving p b stopBit => exact execByteArriving_spares s p b stopBit
  | gapExpiry p =>
    refine event _ (.of_same ?_)
    unfold State.gapExpiry
    split <;> rfl
  | replySent p => exact event _ (s.replySent_spares p)
  | supervisionWindowExpiry p => exact event _ (s.windowExpiry_spares p)
  | purgeExpiry z => exact onSite _
  | dwellExpiry z => exact event _ (.of_same rfl)
  | stepTimeoutExpiry z => exact event _ (.of_same rfl)
  | holdExpiry => exact onSite _
  | travelTimerExpiry | proofTimerExpiry | runDownExpiry | staggerExpiry | slewUpdate => exact onPlant _
  | eraseCompletion v => exact erase v
  | writeCompletion => exact write
  | commitCompletion => exact commit
  | switchChange | proofArrives | proofLost => exact onInput _ _
  | commissioningInputOff =>
    refine ⟨_, rfl, ?_⟩
    split
    · refine .of_contents ?_
      dsimp only
      split
      · exact s.pmc.commissioningOff_contents
      · rfl
    · exact .refl s
  | commissioningInputOn =>
    refine ⟨_, rfl, ?_⟩
    split
    · exact .refl s
    · exact .of_contents rfl
  | powerOnReset => exact ⟨_, rfl, s.beginStartUp_spares .powerOn⟩
  | resetInputAsserted => exact ⟨_, rfl, s.beginStartUp_spares .resetInput⟩
  | resetInputReleased =>
    refine ⟨_, rfl, .of_same ?_⟩
    unfold State.resetReleased
    dsimp only
    split <;> rfl
  | startUpOperation =>
    refine ⟨_, rfl, ?_⟩
    split
    · exact s.completeStartUp_spares _
    · exact .refl s
  | _ => exact request _ rfl

/-- The sampling of the inputs leaves the array (R141). -/
theorem State.sample_contents : s.sample.pmc.contents = s.pmc.contents := by
  unfold State.sample
  dsimp only
  rfl

theorem State.samplePass_contents : s.samplePass.pmc.contents = s.pmc.contents := by
  unfold State.samplePass
  split
  · rfl
  · exact s.sample_contents

theorem State.tick_contents : s.tick.pmc.contents = s.pmc.contents := by
  unfold State.tick
  dsimp only
  refine (State.samplePass_contents _).trans ?_
  split <;> rfl

theorem step_spares : ∃ t, step s = .next t ∧ s.Spares t := by
  unfold step
  split
  · rename_i i rest _
    exact exec_spares { s with pending := rest } i
  unfold idle
  split
  · split
    · exact exec_spares { s with free := s.free + 1 } _
    · exact ⟨_, rfl, .of_contents s.tick_contents⟩
  · split
    · exact exec_spares { s with free := s.free + 1 } _
    · exact ⟨_, rfl, .of_contents (State.samplePass_contents _)⟩

end

/-- The target of an operation is neither VALID nor, while the operation is in progress, locked (R128, R129). -/
theorem Pmc.Guarded.target {m : Pmc} (h : m.Guarded) {b : BlockId} (hb : m.ctrl.target = some b) :
    (m.block b).state ≠ .valid ∧ (m.ctrl.isBusy = true → (m.block b).lock = .unlocked) := by
  have working (op : ArrayOp) : op.blockState ≠ .valid := by cases op <;> simp [ArrayOp.blockState]
  unfold Pmc.Guarded at h
  cases hc : m.ctrl with
  | ready | eraseSetup => rw [hc] at hb; cases hb
  | busy op d =>
    rw [hc] at h hb
    obtain rfl := Option.some.inj hb
    exact ⟨h.1 ▸ working op, fun _ => h.2⟩
  | suspended op d =>
    rw [hc] at h hb
    obtain rfl := Option.some.inj hb
    refine ⟨?_, fun k => by cases k⟩
    rw [show (m.block op.target).state = op.blockState from h]
    exact working op

/-- Settles O13: a step changes the contents of the target of an operation alone, and of a locked one only by a reset. -/
theorem aValidOrLockedBlockKeepsItsContents : Obligations.AValidOrLockedBlockKeepsItsContents := by
  intro s t b guarded keeps e
  obtain ⟨u, eu, spares⟩ := step_spares s
  obtain rfl := Host.Outcome.next.inj (e.symm.trans eu)
  obtain same | ⟨target, written⟩ := spares b
  · exact same
  obtain ⟨notValid, unlocked⟩ := guarded.target target
  obtain valid | ⟨locked, running⟩ := keeps
  · exact absurd valid notValid
  · obtain busy | reset := written
    · exact absurd (unlocked busy) locked
    · exact absurd (running.resolve_left (absurd target)) reset

end Sys2Proof.Machine
end


section
/-!
SUPPORT. What the expiry of a purge does: O29.
-/

namespace Sys2Proof.Machine

/-- A zone that is not the lead leaves the rest of the fire order, the locked-out list and the other zones as they stood (R11). -/
theorem Incident.leave_behind (ic : Incident) (z : ZoneId) (st : ZoneState) (hl : ic.lead ≠ some z)
    (ho : ic.fireOrder.filter (· != z) ≠ []) : ic.leave z st = ic.remove z st := by
  have lead : (ic.remove z st).lead = ic.lead := by
    simp only [Incident.lead, Incident.remove]
    unfold Incident.lead at hl
    cases h : ic.fireOrder with
    | nil => rfl
    | cons y l =>
      have hy : y ≠ z := fun e => hl (by rw [h, e]; rfl)
      simp [hy]
  obtain ⟨-, e⟩ | ⟨-, e⟩ := ic.leave_cases z st <;> rw [e]
  rw [Incident.afterOrder, if_neg (by simpa [Incident.remove] using ho), if_pos lead]

/-- A RESTORING zone whose deadline has come leaves (R11). -/
theorem Site.purgeExpiry_leaves (m : Pmc) (x : Site) (z : ZoneId) {d : Nat} (hs : (x.zone z).state = .restoring)
    (hp : (x.zone z).purge = some d) :
    x.purgeExpiry m z = (x.onWorks fun w => w.onPlant fun p => p.reach d).leave m z .normal .purgeExpiry := by
  simp only [Site.purgeExpiry, hs, hp]

/-- Settles O29: the zone leaves the fire order NORMAL at its deadline, and what follows a change of the fire order follows. -/
theorem purgeExpiryEndsTheZonesFireMode : Obligations.PurgeExpiryEndsTheZonesFireMode := by
  intro s z d hr hs hp
  have running : s.isRunning = true := by simp [State.isRunning, hr]
  refine ⟨s.onSite fun m x => x.purgeExpiry m z, congrArg _ (if_pos running), ?_⟩
  generalize hx : (s.site.onWorks fun w => w.onPlant fun p => p.reach d) = x
  have ic : x.ic = s.site.ic := by rw [← hx]; rfl
  have left : (s.onSite fun m x => x.purgeExpiry m z).site = x.leave s.pmc z .normal .purgeExpiry := by
    rw [State.onSite_site, s.site.purgeExpiry_leaves s.pmc z hs hp, hx]
  have memory : (s.onSite fun m x => x.purgeExpiry m z).pmc = s.pmc := by
    refine (s.onSite_pmc _).trans (if_neg ?_)
    rintro ⟨ho, hn⟩
    rw [s.site.purgeExpiry_leaves s.pmc z hs hp, hx] at hn
    exact hn (x.leave_order_of_nil s.pmc z _ _ (ic ▸ ho))
  have zone : x.zone z = s.site.zone z := by rw [Site.zone, ic, Site.zone]
  have icLeft : (x.leave s.pmc z .normal .purgeExpiry).ic = s.site.ic.leave z .normal := by rw [Site.leave_ic, ic]
  generalize (s.onSite fun m x => x.purgeExpiry m z) = t at *
  simp only [State.zone, State.plant, State.incident, State.now, left]
  refine ⟨?_, (x.leave_not_mem s.pmc z _ _).1, x.leave_ctx s.pmc z _ _, ?_, memory, fun _ right a e he ho => ?_,
    fun hl ho => ?_, fun ho hl => ?_, fun consistent ho y rest e => ?_⟩
  · rw [Site.leave_zone_same, zone]
  · rw [(x.leave_stands s.pmc z _ _).now, ← hx]
    rfl
  · have covers : x.works.Covers z := by
      rw [← hx]
      exact (right hr).covers z
    exact x.leave_not_names s.pmc z _ _ covers a ⟨e, he, ho⟩
  · simp only [Site.zone, icLeft, s.site.ic.leave_behind z .normal hl ho]
    exact ⟨rfl, rfl, fun y hy => s.site.ic.remove_zone_other y z .normal hy⟩
  · rw [icLeft]
    obtain ⟨order, rank⟩ := s.site.ic.leave_ends z .normal ho hl
    rw [order]
    exact ⟨rfl, rank⟩
  · rw [Site.zone, icLeft]
    exact (s.site.consistent_iff.mp (consistent hr)).1.sound.leave_leads .normal ho e

end Sys2Proof.Machine
end


section
/-!
SUPPORT. The posting of one entry of a step record: where its demand and its record stand: O31.
-/

namespace Sys2Proof.Machine

/-! ### The demand list and the posted table -/

section
variable (order : List ZoneId) (d : Demand) (l : List Demand)

theorem mem_placeDemand_self : d ∈ placeDemand order d l := by
  unfold placeDemand
  split
  case isTrue h =>
    obtain ⟨q, hq, ho⟩ := List.any_eq_true.mp h
    exact List.mem_map.mpr ⟨q, hq, if_pos (by simpa using ho)⟩
  case isFalse => exact (mem_insertByKey _).mpr (.inl rfl)

/-- An originator that has an entry has the new one in its place (R52). -/
theorem placeDemand_of_exists (h : ∃ q ∈ l, q.orig = d.orig) :
    placeDemand order d l = l.map fun q => if q.orig = d.orig then d else q :=
  if_pos (by simpa using h)

/-- The entries of other originators stay (R52). -/
theorem mem_placeDemand_other {q : Demand} (h : q.orig ≠ d.orig) : q ∈ placeDemand order d l ↔ q ∈ l := by
  have ne : q ≠ d := fun e => h (congrArg Demand.orig e)
  unfold placeDemand
  split
  · rw [List.mem_map]
    constructor
    · rintro ⟨p, hp, rfl⟩
      split at ne
      · exact absurd rfl ne
      · rwa [if_neg ‹_›]
    · exact fun hq => ⟨q, hq, if_neg h⟩
  · rw [mem_insertByKey]
    exact or_iff_right ne

end

section
variable (a : ActId) (p : Position) (l : List (ActId × Position))

/-- The posted table holds the new record and those of the other actuators (R30). -/
theorem mem_recordPosted (r : ActId × Position) : r ∈ recordPosted a p l ↔ r = (a, p) ∨ r ∈ l ∧ r.1 ≠ a := by
  simp [recordPosted]

/-- A posted table in ascending actuator number stays so (R30). -/
theorem recordPosted_pairwise (h : l.Pairwise fun r q => r.1.val < q.1.val) :
    (recordPosted a p l).Pairwise fun r q => r.1.val < q.1.val := by
  refine insertByKey_pairwise (fun r : ActId × Position => r.1.val) (h.filter _) fun r hr e => ?_
  obtain ⟨-, hne⟩ := List.mem_filter.mp hr
  exact absurd (Fin.ext e) (by simpa using hne)

end

/-! ### One entry -/

/-- The context with an entry recorded at the position posted (R29, R30). -/
def Ctx.record (c : Ctx) (e : PlanEntry) (p : Position) : Ctx :=
  { c with
    posted := recordPosted e.act p c.posted
    proof := if e.prove then c.proof ++ [(e.act, p)] else c.proof }

section
variable (order : List ZoneId) (z : ZoneId) (k : Nat) (w : Works) (e : PlanEntry) {c : Ctx} (hc : w.ctx z = some c)
include hc

theorem Works.modCtx_of_ctx (g : Ctx → Ctx) : w.modCtx z g = w.setCtx z (some (g c)) := by
  rw [Works.modCtx, hc]

/-- An entry that does not fit its channel is ignored, counted and reported (R31). -/
theorem Works.postEntry_of_misfit (h : (w.plant.chans.look e.act).fits e.pos = false) :
    w.postEntry order z k e = (w.setCtx z (some { c with ignored := c.ignored + 1 })).report .planEntryIgnored
      (some (.zone z)) (some (.step k)) (some (.actuator e.act)) := by
  simp [Works.postEntry, hc, h, w.modCtx_of_ctx z hc]

/-- An entry that fits is posted as its channel takes it and recorded (R29, R30, R32). -/
theorem Works.postEntry_of_fits (h : (w.plant.chans.look e.act).fits e.pos = true) :
    let p := (w.plant.chans.look e.act).raised e.pos
    (w.postEntry order z k e).plant = w.plant.post order e.act ⟨c.cls.demand, .zone z, p⟩
      ∧ (w.postEntry order z k e).ctx z = some (c.record e p) ∧ ∀ y, y ≠ z → (w.postEntry order z k e).ctx y = w.ctx y := by
  unfold Works.postEntry
  simp only [hc, h, Bool.not_true, Bool.false_eq_true, if_false]
  generalize hv : (if c.cls = .test ∧ (w.plant.chans.look e.act).isFault = true ∧ (!c.holds e.act) = true then
      { w with ts := w.ts.addFinding (faultFinding e.act (w.plant.lastTravel e.act)) } else w) = v
  have plant : v.plant = w.plant := by rw [← hv]; split <;> rfl
  have ctx : v.ctx = w.ctx := by rw [← hv]; split <;> rfl
  refine ⟨?_, ?_, fun y hy => ?_⟩
  · rw [Works.modCtx_plant, Works.onPlant_plant, plant]
  · rw [Works.modCtx_ctx_same, Works.onPlant_ctx, ctx, hc]
    rfl
  · rw [Works.modCtx_ctx_other _ _ _ _ hy, Works.onPlant_ctx, ctx]

end

/-- A plan position fits a damper with OPEN or CLOSED and a fan with ON or OFF (R31). -/
theorem Channel.fits_iff (ch : Channel) (p : Position) :
    ch.fits p = true ↔ (∃ d q, ch = .damper d ∧ p = .damper q) ∨ ∃ f t, ch = .fan f ∧ p = .fan t := by
  cases ch <;> cases p <;> simp [Channel.fits]

/-- An ON speed is raised to the fan's minimum, and every other position stays (R32). -/
theorem Channel.raised_unique (ch : Channel) (pos p : Position) (h : ch.fits pos = true)
    (hon : ∀ f v, ch = .fan f → pos = .fan (.on v) → p = .fan (.on (max f.cfg.minSpeed v)))
    (hother : (∀ v, pos ≠ .fan (.on v)) → p = pos) : p = ch.raised pos := by
  obtain ⟨d, q, rfl, rfl⟩ | ⟨f, t, rfl, rfl⟩ := (ch.fits_iff pos).mp h
  · exact hother (by simp)
  · cases t with
    | off => exact hother (by simp)
    | on v => exact hon f v rfl rfl

/-- Settles O31: an entry that fits is placed and recorded, and one that does not is ignored. -/
theorem postingAnEntryPlacesItsDemand : Obligations.PostingAnEntryPlacesItsDemand := by
  intro order z k w e c hc
  dsimp only
  rw [← Channel.fits_iff]
  refine ⟨fun h p ⟨hon, hother⟩ => ?_, fun h => w.postEntry_of_misfit order z k e hc (by simpa using h)⟩
  obtain rfl := Channel.raised_unique _ _ p h hon hother
  obtain ⟨plant, ctx, others⟩ := w.postEntry_of_fits order z k e hc h
  rw [plant, Plant.post]
  simp only [Plant.setDemands_look, if_true]
  have self := mem_placeDemand_self order ⟨c.cls.demand, .zone z, (w.plant.chans.look e.act).raised e.pos⟩
    (w.plant.demands.look e.act)
  have replaced := placeDemand_of_exists order ⟨c.cls.demand, .zone z, (w.plant.chans.look e.act).raised e.pos⟩
    (w.plant.demands.look e.act)
  refine ⟨⟨_, ctx, mem_recordPosted _ _ _, recordPosted_pairwise _ _ _⟩, ?_, ?_,
    fun q hq => mem_placeDemand_other order _ _ hq, fun b hb => by rw [if_neg hb], others⟩
  · revert self
    cases c.cls <;> exact id
  · revert replaced
    cases c.cls <;> exact id

end Sys2Proof.Machine
end


section
/-!
SUPPORT. A step record as its bytes spell it, and the entry to a step: O32.
-/

namespace Sys2Proof.Machine

/-! ### The bytes of a record (R173) -/

/-- Reading a list kept to some of its addresses. -/
theorem Memory.read_filter (keeps : Nat → Bool) (m : List Host.Cell) (k : Nat) :
    Memory.read (m.filter fun c => keeps c.1) k = if keeps k then Memory.read m k else Memory.unlisted := by
  induction m with
  | nil => simp [Memory.read]
  | cons c r ih =>
    obtain ⟨j, v⟩ := c
    by_cases hj : keeps j = true <;> by_cases hk : j = k
    · subst hk; simp [hj, Memory.read]
    · simp [hj, hk, Memory.read, ih]
    · subst hk; simp [hj, ih]
    · simp [hj, hk, Memory.read, ih]

section
variable (m : Pmc) (b : BlockId) (q : PosId)

/-- A record that has been written reads as the array's bytes at its position (R173). -/
theorem Pmc.byteAt_recordBytes (h : m.cond b q ≠ .unwritten) {i : Nat} (hi : i < 128) :
    byteAt (m.recordBytes b q) i = Memory.read m.mem (recordBase b q + i) := by
  have here : ((recordBase b q + i) / 128 == b.val * 32 + q.val) = true := by
    rw [beq_iff_eq, recordBase]
    omega
  rw [byteAt, Pmc.recordBytes, if_neg h, List.getD_eq_getElem?_getD, List.getElem?_map, List.getElem?_range hi,
    Option.map_some, Option.getD_some, Memory.read_filter fun a => a / 128 == b.val * 32 + q.val, if_pos here]

theorem Pmc.planStep_of_pos : m.planStep b q.val = stepRecordOf (m.recordBytes b q) := by
  rw [Pmc.planStep, posOfNumber, dif_pos q.isLt]

end

theorem actOfNumber_of_act (a : ActId) : actOfNumber (a.val + 1) = some a := dif_pos (by omega)

/-- An entry that its five bytes spell is read (R171, R173). -/
theorem entryAt_eq_some (r : List Byte) (i : Nat) (e : PlanEntry) (act : (byteAt r (5 + 5 * i)).toNat = e.act.val + 1)
    (prove : e.prove = true ↔ (byteAt r (7 + 5 * i)).toNat ≠ 0)
    (pos : positionOf (byteAt r (6 + 5 * i)) (numberAt r (8 + 5 * i)) = some e.pos) : entryAt r i = some e := by
  have code : 5 + 5 * i + 1 = 6 + 5 * i := by omega
  have flag : 5 + 5 * i + 2 = 7 + 5 * i := by omega
  have speed : 5 + 5 * i + 3 = 8 + 5 * i := by omega
  have proves : (byteAt r (7 + 5 * i) != 0#8) = e.prove := by
    rw [Bool.eq_iff_iff, prove, bne_iff_ne, ne_eq, ne_eq, ← BitVec.toNat_inj]
    rfl
  rw [entryAt, code, flag, speed, act, actOfNumber_of_act, pos, proves]

theorem filterMap_range_getElem? {α : Type} (l : List α) : (List.range l.length).filterMap (fun i => l[i]?) = l := by
  induction l using List.reverseRecOn with
  | nil => rfl
  | append_singleton l a ih =>
    have front : (List.range l.length).filterMap (fun i => (l ++ [a])[i]?) = (List.range l.length).filterMap (fun i => l[i]?) :=
      List.filterMap_congr fun i hi => List.getElem?_append_left (List.mem_range.mp hi)
    rw [List.length_append, List.length_singleton, List.range_succ, List.filterMap_append, front, ih]
    simp

/-- A step record is the entries that its bytes spell (R173). -/
theorem stepRecordOf_entries (r : List Byte) (entries : List PlanEntry) (count : (byteAt r 4).toNat ≤ 24)
    (length : entries.length = (byteAt r 4).toNat) (spelled : ∀ i e, entries[i]? = some e → entryAt r i = some e) :
    (stepRecordOf r).entries = entries := by
  have read : (List.range entries.length).filterMap (entryAt r) = (List.range entries.length).filterMap fun i => entries[i]? := by
    refine List.filterMap_congr fun i hi => ?_
    have within := List.getElem?_eq_getElem (List.mem_range.mp hi)
    rw [within, spelled i _ within]
  rw [stepRecordOf, min_eq_right count, ← length, read, filterMap_range_getElem?]

/-! ### The posting of a record -/

/-- What the posting of entries leaves of a context: all but the posted table, the proof set and the ignored count (R29). -/
def Ctx.Posts (c d : Ctx) : Prop := d = { c with posted := d.posted, proof := d.proof, ignored := d.ignored }

theorem Ctx.Posts.refl (c : Ctx) : c.Posts c := rfl

theorem Ctx.Posts.trans {c d e : Ctx} (h : c.Posts d) (i : d.Posts e) : c.Posts e := by
  unfold Ctx.Posts at *
  rw [h] at i
  exact i

section
variable (order : List ZoneId) (z : ZoneId) (k : Nat) (w : Works) {c : Ctx} (hc : w.ctx z = some c)
include hc

theorem Works.postEntry_posts (e : PlanEntry) :
    ∃ d, (w.postEntry order z k e).ctx z = some d ∧ c.Posts d ∧ (w.postEntry order z k e).plant.now = w.plant.now := by
  cases h : (w.plant.chans.look e.act).fits e.pos with
  | true =>
    obtain ⟨plant, ctx, -⟩ := w.postEntry_of_fits order z k e hc h
    exact ⟨_, ctx, rfl, by rw [plant, Plant.post_now]⟩
  | false =>
    rw [w.postEntry_of_misfit order z k e hc h]
    exact ⟨_, Works.setCtx_ctx_same .., rfl, rfl⟩

theorem Works.postEntries_posts (l : List PlanEntry) :
    ∃ d, (l.foldl (Works.postEntry order z k) w).ctx z = some d ∧ c.Posts d
      ∧ (l.foldl (Works.postEntry order z k) w).plant.now = w.plant.now := by
  induction l generalizing w c with
  | nil => exact ⟨c, hc, .refl c, rfl⟩
  | cons e l ih =>
    obtain ⟨d, hd, posts, now⟩ := w.postEntry_posts order z k hc e
    obtain ⟨d', hd', posts', now'⟩ := ih _ hd
    exact ⟨d', hd', posts.trans posts', now'.trans now⟩

/-- Entry to a step: the context at the step, the entries posted in the order written, and the timers started (R29). -/
theorem Works.enterStep_spec (m : Pmc) {b : BlockId} (hb : c.plan.block = some b) :
    let begun := w.setCtx z (some { c with step := k, phase := .sequencing, proof := [], dwell := .stopped, timeout := none })
    let y := (m.planStep b k).entries.foldl (Works.postEntry order z k) begun
    ∃ d, y.ctx z = some d
      ∧ ({ c with step := k, phase := .sequencing, proof := [], dwell := .stopped, timeout := none } : Ctx).Posts d
      ∧ w.enterStep m order z k = y.setCtx z (some { d with
        dwell := .running (w.plant.now + (m.planStep b k).dwell * 1000)
        timeout := some (w.plant.now + (m.planStep b k).timeout * 1000) }) := by
  dsimp only
  obtain ⟨d, hd, posts, now⟩ := Works.postEntries_posts order z k
    (w.setCtx z (some { c with step := k, phase := .sequencing, proof := [], dwell := .stopped, timeout := none }))
    (Works.setCtx_ctx_same ..) (m.planStep b k).entries
  refine ⟨d, hd, posts, ?_⟩
  rw [Works.enterStep, hc]
  dsimp only
  rw [hb]
  dsimp only
  rw [w.modCtx_of_ctx z hc, Works.modCtx_of_ctx z _ hd, now, Works.setCtx_plant]

end

/-- Settles O32: the record at the step's position is the one that its bytes spell. -/
theorem enteringAStepPostsItsRecord : Obligations.EnteringAStepPostsItsRecord := by
  intro m order z k w c b q entries
  dsimp only
  intro hc plan hq hw count length spells
  have block : c.plan.block = some b := by
    obtain e | ⟨e, rfl⟩ := plan <;> rw [e] <;> rfl
  have byte {i : Nat} (hi : i < 128) := m.byteAt_recordBytes b q (by rw [hw]; simp) hi
  have record : m.planStep b k = stepRecordOf (m.recordBytes b q) := by rw [← hq, m.planStep_of_pos]
  have number {i : Nat} (hi : i + 1 < 128) : numberAt (m.recordBytes b q) i
      = (Memory.read m.mem (recordBase b q + i)).toNat * 256 + (Memory.read m.mem (recordBase b q + (i + 1))).toNat := by
    rw [numberAt, byte (by omega), byte hi]
    rfl
  have read : (m.planStep b k).entries = entries := by
    rw [record]
    refine stepRecordOf_entries _ _ ?_ ?_ fun i e he => ?_
    · rw [byte (by omega)]; exact count
    · rw [byte (by omega)]; exact length
    · have within : i < entries.length := (List.getElem?_eq_some_iff.mp he).1
      obtain ⟨act, prove, pos⟩ := spells i e he
      refine entryAt_eq_some _ i e (by rw [byte (by omega)]; exact act) (by rw [byte (by omega)]; exact prove) ?_
      rw [byte (by omega), number (by omega), positionOf]
      obtain ⟨code, e⟩ | ⟨code, e⟩ | ⟨code, e⟩ | ⟨code, e⟩ := pos <;> rw [code, e] <;> rfl
  obtain ⟨d, hd, posts, entered⟩ := w.enterStep_spec order z k hc m block
  rw [read] at hd entered
  refine ⟨d, hd, by rw [posts], by rw [posts], by rw [posts], by rw [posts], ?_⟩
  rw [entered, record, stepRecordOf]
  dsimp only
  rw [number (by omega), number (by omega)]

end Sys2Proof.Machine
end


section
/-!
SUPPORT. How the channel side goes on: every operation of the channels, the demand lists, the start queue and the air balance is a
run of small changes, each of which keeps the configuration of every channel and takes no report out of a queue.
-/

namespace Sys2Proof.Machine

/-- The configuration of a channel (R64, R83). -/
def Channel.config : Channel → ChanCfg
  | .unassigned => .unassigned
  | .damper d => .damper d.cfg
  | .fan f => .fan f.cfg

/-- From `x` to `y` the channel side has gone on by small changes. -/
inductive Plant.Runs : Plant → Plant → Prop
  | refl (x : Plant) : Runs x x
  | trans {x y z : Plant} (h : Runs x y) (i : Runs y z) : Runs x z
  | report (x : Plant) (k : ReportKind) (u : Option Subject) (n : Option NewState) (d : Option Detail) :
      Runs x (x.report k u n d)
  | setChan (x : Plant) (a : ActId) (c : Channel) (h : c.config = (x.chans.look a).config) : Runs x (x.setChan a c)
  | handPx (x : Plant) (a : ActId) : Runs x (x.handPx a)
  | handTs (x : Plant) (n : TestNote) : Runs x (x.handTs n)
  | balance (x : Plant) (queue : List QueueEntry) (stagger : Option Nat) (history : Table (List ActId) 4)
      (figs : Table GroupFig 4) : Runs x { x with queue, stagger, history, figs }
  | taken (x : Plant) (pxDue : List ActId) (notes : List TestNote) : Runs x { x with pxDue, notes }
  | demands (x : Plant) (demands : Table (List Demand) 64) : Runs x { x with demands }

/-- Reports `q` have gone on to `p`: none is taken out, and new ones stand behind. -/
def ReportQueue.Grows (q p : ReportQueue) : Prop := q.reports <+: p.reports

theorem ReportQueue.take_grows (q : ReportQueue) (r : Report) : q.Grows (q.take r) := by
  obtain ⟨-, e⟩ | ⟨-, e⟩ := q.take_cases r <;> rw [e]
  · exact List.prefix_append _ _
  · exact List.prefix_rfl

/-- A report that finds room is the next in a queue that goes on. -/
theorem ReportQueue.Grows.next {q p : ReportQueue} {r : Report} (h : (q.take r).Grows p) (room : q.reports.length < 32) :
    ∃ more, p.reports = q.reports ++ r :: more := by
  obtain ⟨more, e⟩ := h
  obtain ⟨-, k⟩ | ⟨full, -⟩ := q.take_cases r
  · rw [k] at e
    exact ⟨more, by rw [← e]; simp⟩
  · exact absurd room (Nat.not_lt.mpr full)

/-- A run keeps the configuration of every channel. -/
theorem Plant.Runs.config {x y : Plant} (h : Plant.Runs x y) (a : ActId) :
    (y.chans.look a).config = (x.chans.look a).config := by
  induction h with
  | trans _ _ hy hz => exact hz.trans hy
  | setChan x b c h =>
    rw [Plant.setChan_chans, Table.look_put]
    split
    case isTrue e => rw [h, e]
    case isFalse => rfl
  | _ => rfl

/-- A run takes no report out of a queue. -/
theorem Plant.Runs.grows {x y : Plant} (h : Plant.Runs x y) :
    x.ffReports.Grows y.ffReports ∧ x.blReports.Grows y.blReports := by
  induction h with
  | trans _ _ hy hz => exact ⟨hy.1.trans hz.1, hy.2.trans hz.2⟩
  | report x k u n d => exact ⟨ReportQueue.take_grows _ _, ReportQueue.take_grows _ _⟩
  | _ => exact ⟨List.prefix_rfl, List.prefix_rfl⟩

/-- A report joins each queue that has room, and stands there through a run (R157, R158). -/
theorem Plant.Runs.joins {x y : Plant} {k : ReportKind} {u : Option Subject} {n : Option NewState} {d : Option Detail}
    (h : Plant.Runs (x.report k u n d) y) :
    (x.ffReports.reports.length < 32 →
        ∃ more, y.ffReports.reports = x.ffReports.reports ++ ⟨k, x.now % 4294967296, u, n, d⟩ :: more)
      ∧ (x.blReports.reports.length < 32 →
        ∃ more, y.blReports.reports = x.blReports.reports ++ ⟨k, x.now % 4294967296, u, n, d⟩ :: more) :=
  ⟨h.grows.1.next, h.grows.2.next⟩

theorem Plant.Runs.foldl {α : Type} {g : Plant → α → Plant} (hg : ∀ x a, Plant.Runs x (g x a)) (l : List α) (x : Plant) :
    Plant.Runs x (l.foldl g x) := by
  induction l generalizing x with
  | nil => exact .refl x
  | cons a l ih => exact (hg x a).trans (ih _)

/-! ### Fans and the start queue -/

section
variable (x : Plant) (a : ActId)

theorem Plant.chans_of_damper? {d : Damper} (h : x.damper? a = some d) : x.chans.look a = .damper d := by
  unfold Plant.damper? at h
  split at h
  case h_1 e => rw [e, Option.some.inj h]
  case h_2 => cases h

theorem Plant.modFan_runs (g : Fan → Fan) (hg : ∀ f, (g f).cfg = f.cfg := by intro f; rfl) : Plant.Runs x (x.modFan a g) := by
  unfold Plant.modFan
  split
  case h_1 f e => exact .setChan x a _ (by rw [e]; exact congrArg ChanCfg.fan (hg f))
  case h_2 => exact .refl x

theorem Plant.fanEnter_runs (st : FanState) (g : Fan → Fan) (hg : ∀ f, (g f).cfg = f.cfg := by intro f; rfl) :
    Plant.Runs x (x.fanEnter a st g) := by
  have entered := (x.modFan_runs a (fun f => { g f with state := st }) hg).trans (.handPx _ a)
  unfold Plant.fanEnter
  split
  · dsimp only
    split
    · exact entered.trans (.handTs _ _)
    · exact entered
  · exact .refl x

theorem Plant.reportFan_runs (st : FanState) (c : FanCause) : Plant.Runs x (x.reportFan a st c) := .report x _ _ _ _

theorem Plant.leaveQueue_runs : Plant.Runs x (x.leaveQueue a) := .balance x _ _ _ _

theorem Plant.joinQueue_runs : Plant.Runs x (x.joinQueue a) := by
  unfold Plant.joinQueue
  split
  · exact .balance x _ _ _ _
  · exact .refl x

theorem Plant.joinHistory_runs : Plant.Runs x (x.joinHistory a) := by
  unfold Plant.joinHistory
  split
  · split
    · exact .balance x _ _ _ _
    · exact .refl x
  · exact .refl x

theorem Plant.leaveHistory_runs : Plant.Runs x (x.leaveHistory a) := by
  unfold Plant.leaveHistory
  split
  · split
    · exact .balance x _ _ _ _
    · exact .refl x
  · exact .refl x

theorem Plant.refresh_runs (g : GroupId) : Plant.Runs x (x.refresh g) := .balance x _ _ _ _

theorem Plant.selfApplied_runs : Plant.Runs x (x.selfApplied a) := by
  unfold Plant.selfApplied
  split
  · split
    · exact x.modFan_runs a _
    · split
      · exact x.modFan_runs a _
      · exact .refl x
  · exact .refl x

theorem Plant.handSpeeds_runs (g : GroupId) : Plant.Runs x (x.handSpeeds g) :=
  Plant.Runs.foldl (fun (y : Plant) (p : ActId × Nat) => y.modFan_runs p.1 _) _ _

/-- A fan enters a state and reports it. -/
theorem Plant.fanEnter_reportFan_runs (st : FanState) (g : Fan → Fan) (c : FanCause) (hg : ∀ f, (g f).cfg = f.cfg := by intro f; rfl) :
    Plant.Runs x ((x.fanEnter a st g).reportFan a st c) :=
  (x.fanEnter_runs a st g hg).trans (Plant.reportFan_runs ..)

theorem Plant.becomeRunning_runs : Plant.Runs x (x.becomeRunning a) := x.fanEnter_reportFan_runs a _ _ _

end

/-! ### Operations that may look for a grant -/

section
variable {walk : Plant → Plant} (hw : ∀ x, Plant.Runs x (walk x)) (x : Plant) (a : ActId)
include hw

theorem Plant.startPath_runs : Plant.Runs x (x.startPath walk a) := by
  unfold Plant.startPath
  split
  · split
    · exact ((x.fanEnter_reportFan_runs a _ _ _).trans (Plant.joinQueue_runs ..)).trans (hw _)
    · exact x.fanEnter_reportFan_runs a _ _ _
  · exact .refl x

theorem Plant.completeStop_runs : Plant.Runs x (x.completeStop walk a) := by
  unfold Plant.completeStop
  split
  · dsimp only
    split
    · exact x.fanEnter_reportFan_runs a _ _ _
    · exact (x.fanEnter_reportFan_runs a _ _ _).trans (Plant.startPath_runs hw _ _)
  · exact .refl x

theorem Plant.shed_runs (g : GroupId) : Plant.Runs x (x.shed walk g a) := by
  have stopping (y : Plant) (h : Plant.Runs x y) :
      Plant.Runs x (((y.fanEnter a .stopping fun f =>
        { f.stopRecord x.now (x.proofPresent a) .shed with requeue := true }).leaveHistory a).refresh g) :=
    ((h.trans (y.fanEnter_runs a _ _)).trans (Plant.leaveHistory_runs ..)).trans (Plant.refresh_runs ..)
  unfold Plant.shed
  dsimp only
  split
  · exact stopping _ (.report x _ _ _ _)
  · exact (stopping _ (.report x _ _ _ _)).trans (Plant.completeStop_runs hw _ _)

theorem Plant.shedAll_runs (g : GroupId) : Plant.Runs x (x.shedAll walk g) := by
  refine Plant.Runs.foldl (fun y a => ?_) _ _
  dsimp only
  split
  · exact Plant.shed_runs hw y a g
  · exact .refl y

theorem Plant.evaluate_runs (g : GroupId) : Plant.Runs x (x.evaluate walk g) := by
  have allocated := ((x.refresh_runs g).trans (Plant.shedAll_runs hw _ g)).trans (Plant.handSpeeds_runs _ g)
  unfold Plant.evaluate
  dsimp only
  split
  · exact x.refresh_runs g
  · split
    · exact allocated
    · exact allocated.trans (hw _)

theorem Plant.fanTouched_runs : Plant.Runs x (x.fanTouched walk a) := by
  unfold Plant.fanTouched
  dsimp only
  split
  · exact (x.selfApplied_runs a).trans (Plant.evaluate_runs hw _ _)
  · exact x.selfApplied_runs a

theorem Plant.enterStopping_runs (broken : Option ActId) : Plant.Runs x (x.enterStopping walk a broken) := by
  have stopping (y : Plant) (h : Plant.Runs x y) : Plant.Runs x ((y.leaveHistory a).fanTouched walk a) :=
    (h.trans (Plant.leaveHistory_runs ..)).trans (Plant.fanTouched_runs hw _ _)
  unfold Plant.enterStopping
  dsimp only
  cases broken with
  | some d =>
    split
    · exact stopping _ ((x.fanEnter_runs a _ _).trans (.report _ _ _ _ _))
    · refine Plant.Runs.trans (stopping _ ?_) (Plant.completeStop_runs hw _ _)
      exact (x.fanEnter_runs a _ _).trans (.report _ _ _ _ _)
  | none =>
    split
    · exact stopping _ (x.fanEnter_reportFan_runs a _ _ _)
    · exact (stopping _ (x.fanEnter_reportFan_runs a _ _ _)).trans (Plant.completeStop_runs hw _ _)

end

section
variable (x : Plant) (a : ActId)

theorem Plant.grant_runs : Plant.Runs x (x.grant a) := by
  have staggered : Plant.Runs x { x with stagger := some (x.now + x.staggerInterval * 1000) } := .balance x _ _ _ _
  have starting (y : Plant) (h : Plant.Runs x y) (g : Fan → Fan) (hg : ∀ f, (g f).cfg = f.cfg) :
      Plant.Runs x (((((y.leaveQueue a).fanEnter a .starting g).joinHistory a).reportFan a .starting .grant).fanTouched id a) :=
    ((((h.trans (Plant.leaveQueue_runs ..)).trans (Plant.fanEnter_runs _ a _ g hg)).trans
      (Plant.joinHistory_runs ..)).trans (Plant.reportFan_runs ..)).trans (Plant.fanTouched_runs (fun y => .refl y) _ _)
  unfold Plant.grant
  dsimp only
  split
  · split
    · exact .trans (starting _ staggered _ (by intro f; rfl)) (Plant.becomeRunning_runs ..)
    · exact starting _ staggered _ (by intro f; rfl)
  · exact starting _ staggered _ (by intro f; rfl)

theorem Plant.walk_runs : Plant.Runs x x.walk := by
  unfold Plant.walk
  split
  · exact .refl x
  · split
    · exact x.grant_runs _
    · exact .refl x

theorem Plant.pathMade_runs : Plant.Runs x (x.pathMade a) := by
  unfold Plant.pathMade
  split
  · split
    · exact ((x.fanEnter_reportFan_runs a _ _ _).trans (Plant.joinQueue_runs ..)).trans (Plant.walk_runs _)
    · exact .refl x
  · exact .refl x

theorem Plant.pathBroken_runs (d : ActId) : Plant.Runs x (x.pathBroken a d) := by
  unfold Plant.pathBroken
  split
  · split
    · exact Plant.enterStopping_runs Plant.walk_runs x a _
    · split
      · exact (x.leaveQueue_runs a).trans (Plant.fanEnter_reportFan_runs _ a _ _ _)
      · exact .refl x
  · exact .refl x

/-- A fan's taking of a resolved demand is a run (R86). -/
theorem Plant.fanTarget_runs (t : FanTarget) (c : ResolvedClass) : Plant.Runs x (x.fanTarget a t c) := by
  unfold Plant.fanTarget
  split
  · have taken := x.modFan_runs a fun f => { f with target := t, cls := c, requeue := f.requeue && t != .off }
    dsimp only
    split
    · split
      · exact taken.trans (Plant.startPath_runs Plant.walk_runs _ a)
      · exact taken
    · split
      · exact taken.trans (Plant.fanEnter_reportFan_runs _ a _ _ _)
      · exact taken
    · split
      · exact (taken.trans (Plant.leaveQueue_runs ..)).trans (Plant.fanEnter_reportFan_runs _ a _ _ _)
      · split
        · exact taken.trans (Plant.walk_runs _)
        · exact taken
    iterate 3
      · split
        · exact taken.trans (Plant.enterStopping_runs Plant.walk_runs _ a _)
        · split
          · exact taken.trans (Plant.fanTouched_runs Plant.walk_runs _ a)
          · exact taken
    · exact taken
    · exact taken
  · exact .refl x

/-! ### Dampers -/

theorem Plant.handOpenness_runs (was is : DamperState) (cfg : DamperCfg) :
    Plant.Runs x (x.handOpenness a was is cfg) := by
  have handed : Plant.Runs x (if is = .atOpen then (x.fansThrough a).foldl Plant.pathMade x
      else (x.fansThrough a).foldl (fun y f => y.pathBroken f a) x) := by
    split
    · exact Plant.Runs.foldl (fun y f => y.pathMade_runs f) _ _
    · exact Plant.Runs.foldl (fun y f => y.pathBroken_runs f a) _ _
  unfold Plant.handOpenness
  split
  · exact .refl x
  · dsimp only
    split
    · exact handed.trans (Plant.evaluate_runs Plant.walk_runs _ _)
    · exact handed

theorem Plant.damperEnter_runs (was : DamperState) (d : Damper) (k : ReportKind) (e : Option Detail)
    (h : (x.chans.look a).config = .damper d.cfg) : Plant.Runs x (x.damperEnter a was d k e) := by
  have entered := ((Plant.Runs.setChan x a (.damper d) h.symm).trans
    (.report _ k (some (.actuator a)) (some (.damper d.state)) e)).trans (.handPx _ a)
  unfold Plant.damperEnter
  dsimp only
  split
  · exact (entered.trans (.handTs _ _)).trans (Plant.handOpenness_runs ..)
  · exact entered.trans (Plant.handOpenness_runs ..)

/-- A damper's taking of a target is a run (R69). -/
theorem Plant.damperTarget_runs (p : DamperPos) : Plant.Runs x (x.damperTarget a p) := by
  unfold Plant.damperTarget
  split
  · rename_i d h
    have config (e : Damper) (he : e.cfg = d.cfg) : (x.chans.look a).config = .damper e.cfg := by
      rw [x.chans_of_damper? a h, he]
      rfl
    split
    · exact .refl x
    · dsimp only
      split
      · exact .setChan x a _ (config _ rfl).symm
      · exact x.damperEnter_runs a _ _ _ _ (config _ rfl)
      · exact x.damperEnter_runs a _ _ _ _ (config _ rfl)
      iterate 3
        · split
          · exact x.damperEnter_runs a _ _ _ _ (config _ rfl)
          · exact x.damperEnter_runs a _ _ _ _ (config _ rfl)
  · exact .refl x

/-! ### Demands -/

theorem Plant.channelTakes_runs (r : Resolved) : Plant.Runs x (x.channelTakes a r) := by
  unfold Plant.channelTakes
  split
  · exact x.damperTarget_runs a _
  · exact x.fanTarget_runs a _ _

theorem Plant.handOff_runs (old new : Resolved) : Plant.Runs x (x.handOff a old new) := by
  unfold Plant.handOff
  dsimp only
  split
  · exact (x.channelTakes_runs a new).trans (.handPx _ a)
  · exact ((Plant.Runs.report x _ _ _ _).trans (Plant.channelTakes_runs _ a new)).trans (.handPx _ a)

/-- A change of a demand list and what it hands on is a run (R49, R50). -/
theorem Plant.setDemands_runs (l : List Demand) : Plant.Runs x (x.setDemands a l) := by
  unfold Plant.setDemands
  dsimp only
  split
  · split
    · exact .demands x _
    · exact (Plant.Runs.demands x _).trans (Plant.handOff_runs ..)
  · exact .demands x _

theorem Plant.post_runs (order : List ZoneId) (d : Demand) : Plant.Runs x (x.post order a d) := x.setDemands_runs a _

end

end Sys2Proof.Machine
end


section
/-!
SUPPORT. How a zone that executes goes on: the context that an entry to a step or the end of one leaves, the contexts and the test
that settling leaves alone, and the reports that stay in their queues meanwhile.
-/

namespace Sys2Proof.Machine

/-! ### The channel side goes on -/

section
variable (m : Pmc) (order : List ZoneId) (z : ZoneId) (k : Nat) (w : Works)

theorem Works.postEntry_runs (e : PlanEntry) : Plant.Runs w.plant (w.postEntry order z k e).plant := by
  cases hc : w.ctx z with
  | none =>
    rw [Works.postEntry, hc]
    exact .refl _
  | some c =>
    cases h : (w.plant.chans.look e.act).fits e.pos with
    | true =>
      rw [(w.postEntry_of_fits order z k e hc h).1]
      exact w.plant.post_runs ..
    | false =>
      rw [w.postEntry_of_misfit order z k e hc h]
      exact .report ..

theorem Works.postEntries_runs (l : List PlanEntry) :
    Plant.Runs w.plant (l.foldl (Works.postEntry order z k) w).plant := by
  induction l generalizing w with
  | nil => exact .refl _
  | cons e l ih => exact (w.postEntry_runs order z k e).trans (ih _)

theorem Works.enterStep_runs : Plant.Runs w.plant (w.enterStep m order z k).plant := by
  unfold Works.enterStep
  split
  · exact .refl _
  split
  · exact .refl _
  · dsimp only
    rw [Works.modCtx_plant]
    have posted := Works.postEntries_runs order z k
      (w.modCtx z fun c => { c with step := k, phase := .sequencing, proof := [], dwell := .stopped, timeout := none })
    rw [Works.modCtx_plant] at posted
    exact posted _

theorem Works.established_plant : (w.established z).plant = w.plant := by
  unfold Works.established
  split
  · split <;> rfl
  · rfl

theorem Works.advance_runs : Plant.Runs w.plant (w.advance m order z).plant := by
  unfold Works.advance
  split
  · exact .refl _
  split
  · exact w.enterStep_runs m order z _
  · rw [Works.established_plant, Works.modCtx_plant]
    exact .refl _

theorem Works.endComplete_runs : Plant.Runs w.plant (w.endComplete m order z).plant := by
  unfold Works.endComplete
  split
  · exact .refl _
  · refine Plant.Runs.trans ?_ (Works.advance_runs ..)
    rw [Works.report_plant, Works.modCtx_plant]
    exact .report ..

theorem Works.judge_runs : Plant.Runs w.plant (w.judge m order z).plant := by
  unfold Works.judge
  split
  · exact .refl _
  split
  · exact w.endComplete_runs m order z
  · exact .refl _

theorem Works.takeNotes_runs : Plant.Runs w.plant w.takeNotes.plant := by
  rw [w.takeNotes_keeps.1]
  exact .taken ..

theorem Works.round_runs : Plant.Runs w.plant (w.round m order).plant :=
  Works.round_keeps (fun v => Plant.Runs w.plant v.plant) m order (fun _ h => h.trans (.taken ..))
    (fun z v h => h.trans (v.judge_runs m order z)) w (.refl _)

theorem Works.settleFor_runs (n : Nat) : Plant.Runs w.plant (w.settleFor m order n).plant :=
  Works.settleFor_keeps (fun v => Plant.Runs w.plant v.plant) m order (fun v h => h.trans v.takeNotes_runs)
    (fun v h => h.trans (v.round_runs m order)) n w (.refl _)

theorem Works.settle_runs : Plant.Runs w.plant (w.settle m order).plant := w.settleFor_runs m order settleRounds

theorem Works.enterStep_settle_runs : Plant.Runs w.plant ((w.enterStep m order z k).settle m order).plant :=
  (w.enterStep_runs m order z k).trans (Works.settle_runs ..)

end

/-! ### What settling leaves alone -/

/-- The zone evaluates no proof: its step goes on without one, its dwell has not expired, or it is ESTABLISHED (R35). -/
def Ctx.Rests (c : Ctx) : Prop := ¬ (c.phase = .sequencing ∧ c.dwell = .expired)

theorem Ctx.rests_of_running {c : Ctx} {d : Nat} (h : c.dwell = .running d) : c.Rests := fun k => by
  rw [h] at k
  cases k.2

theorem Ctx.rests_of_established {c : Ctx} (h : c.phase = .established) : c.Rests := fun k => by
  rw [h] at k
  cases k.1

section
variable (m : Pmc) (order : List ZoneId) (z : ZoneId) (w : Works) {c : Ctx} (hc : w.ctx z = some c)
include hc

theorem Works.judge_of_rests (h : c.Rests) : w.judge m order z = w := by
  rw [Works.judge, hc]
  exact if_neg fun k => h ⟨k.1, k.2.1⟩

/-- A resting zone's context stands through the evaluation of any zone. -/
theorem Works.judge_ctx_of_rests (h : c.Rests) (y : ZoneId) : (w.judge m order y).ctx z = some c := by
  by_cases e : z = y
  · rw [← e, w.judge_of_rests m order z hc h, hc]
  · rw [Works.judge]
    split
    · exact hc
    · split
      · rw [(w.endComplete_steps m order y).other z e, hc]
      · exact hc

end

theorem Works.takeNotes_ctx (w : Works) : w.takeNotes.ctx = w.ctx := by
  funext z
  rw [Works.ctx, w.takeNotes_keeps.2.1, Works.ctx]

section
variable (m : Pmc) (order : List ZoneId) (z : ZoneId) {c : Ctx} (h : c.Rests)
include h

theorem Works.settleFor_ctx_of_rests (n : Nat) (w : Works) (hc : w.ctx z = some c) :
    (w.settleFor m order n).ctx z = some c :=
  Works.settleFor_keeps (fun v => v.ctx z = some c) m order (fun v k => by rw [v.takeNotes_ctx]; exact k)
    (fun v k => Works.round_keeps (fun v => v.ctx z = some c) m order (fun _ k => k)
      (fun y v k => v.judge_ctx_of_rests m order z k h y) v k) n w hc

/-- A resting zone's context stands through settling (R35). -/
theorem Works.settle_ctx_of_rests (w : Works) (hc : w.ctx z = some c) : (w.settle m order).ctx z = some c :=
  Works.settleFor_ctx_of_rests m order z h settleRounds w hc

end

/-- Nothing is settled where nothing waits (R34). -/
theorem Works.settle_of_settled (m : Pmc) (order : List ZoneId) (w : Works) (h : w.plant.Settled) : w.settle m order = w := by
  obtain ⟨⟨now, chans, inputs, stats, demands, queue, stagger, interval, history, groups, figs, ff, bl, pxDue, notes⟩, px, ts⟩ := w
  obtain ⟨hp, hn⟩ : pxDue = [] ∧ notes = [] := h
  subst hp hn
  rfl

/-! ### The test in progress -/

section
variable (m : Pmc) (order : List ZoneId) (z : ZoneId) (k : Nat) (w : Works)

theorem Works.postEntry_test (e : PlanEntry) : (w.postEntry order z k e).ts.test = w.ts.test := by
  unfold Works.postEntry
  split
  · rfl
  · dsimp only
    split
    · rw [Works.report_ts, Works.modCtx_ts]
    · rw [Works.modCtx_ts, Works.onPlant_ts]
      split
      · exact TestSeq.addFinding_test _ _
      · rfl

theorem Works.postEntries_test (l : List PlanEntry) : (l.foldl (Works.postEntry order z k) w).ts.test = w.ts.test := by
  induction l generalizing w with
  | nil => rfl
  | cons e l ih => exact (ih _).trans (w.postEntry_test order z k e)

theorem Works.enterStep_test : (w.enterStep m order z k).ts.test = w.ts.test := by
  unfold Works.enterStep
  split
  · rfl
  split
  · rfl
  · dsimp only
    rw [Works.modCtx_ts, Works.postEntries_test, Works.modCtx_ts]

/-- The arrival of a zone at ESTABLISHED is no arrival of the zone under test, where that is another (R121). -/
theorem Works.established_of_other (h : ∀ u, w.ts.test = some u → u.zone ≠ z) : w.established z = w := by
  unfold Works.established
  split
  case h_1 u hu => exact if_neg (h u hu)
  case h_2 => rfl

/-- The end of a step of another zone leaves the test in progress (R121). -/
theorem Works.judge_test_of_other (h : ∀ u, w.ts.test = some u → u.zone ≠ z) : (w.judge m order z).ts.test = w.ts.test := by
  have advanced (v : Works) (hv : v.ts.test = w.ts.test) : (v.advance m order z).ts.test = w.ts.test := by
    rw [← hv] at h ⊢
    unfold Works.advance
    split
    · rfl
    split
    · exact v.enterStep_test m order z _
    · rw [Works.established_of_other z _ (by rwa [Works.modCtx_ts]), Works.modCtx_ts]
  unfold Works.judge
  split
  · rfl
  split
  · unfold Works.endComplete
    split
    · rfl
    · exact advanced _ (by rw [Works.report_ts, Works.modCtx_ts])
  · rfl

/-- While the zone under test rests, settling leaves the test in progress. -/
theorem Works.settle_test_of_rests {u : Test} {c : Ctx} (ht : w.ts.test = some u) (hc : w.ctx u.zone = some c)
    (h : c.Rests) : (w.settle m order).ts.test = some u := by
  have judged (y : ZoneId) (v : Works) (k : v.ctx u.zone = some c ∧ v.ts.test = some u) :
      (v.judge m order y).ctx u.zone = some c ∧ (v.judge m order y).ts.test = some u := by
    refine ⟨v.judge_ctx_of_rests m order u.zone k.1 h y, ?_⟩
    by_cases e : u.zone = y
    · rw [← e, v.judge_of_rests m order u.zone k.1 h, k.2]
    · rw [v.judge_test_of_other m order y, k.2]
      intro u' hu'
      rw [k.2, Option.some_inj] at hu'
      exact hu' ▸ e
  exact (Works.settle_keeps (fun v => v.ctx u.zone = some c ∧ v.ts.test = some u) m order
    (fun v k => ⟨by rw [v.takeNotes_ctx]; exact k.1, v.takeNotes_keeps.2.2.trans k.2⟩)
    (fun v k => Works.round_keeps (fun v => v.ctx u.zone = some c ∧ v.ts.test = some u) m order (fun _ k => k) judged v k)
    w ⟨hc, ht⟩).2

end

/-! ### The entry to a step -/

/-- What a context is once its zone has entered step `k` of its plan (R29): the step's own, its timers running. -/
structure Ctx.Entered (c : Ctx) (k : Nat) (d : Ctx) : Prop where
  plan : d.plan = c.plan
  steps : d.steps = c.steps
  cls : d.cls = c.cls
  outcomes : d.outcomes = c.outcomes
  step : d.step = k
  phase : d.phase = .sequencing
  dwell : ∃ t, d.dwell = .running t
  timeout : d.timeout.isSome = true

theorem Ctx.Entered.rests {c d : Ctx} {k : Nat} (h : c.Entered k d) : d.Rests :=
  let ⟨_, e⟩ := h.dwell
  Ctx.rests_of_running e

section
variable (m : Pmc) (order : List ZoneId) (z : ZoneId) (k : Nat) (w : Works) {c : Ctx} (hc : w.ctx z = some c)
include hc

theorem Works.enterStep_entered (hb : c.plan.block.isSome = true) :
    ∃ d, (w.enterStep m order z k).ctx z = some d ∧ c.Entered k d := by
  obtain ⟨b, hb⟩ := Option.isSome_iff_exists.mp hb
  obtain ⟨d, -, posts, entered⟩ := w.enterStep_spec order z k hc m hb
  rw [entered]
  refine ⟨_, Works.setCtx_ctx_same .., ?_⟩
  constructor <;> simp only [Option.isSome_some]
  case dwell => exact ⟨_, rfl⟩
  all_goals rw [posts]

/-- Settling leaves a step just entered (R29). -/
theorem Works.enterStep_settle_entered (hb : c.plan.block.isSome = true) :
    ∃ d, ((w.enterStep m order z k).settle m order).ctx z = some d ∧ c.Entered k d
      ∧ (w.enterStep m order z k).ctx z = some d := by
  obtain ⟨d, hd, entered⟩ := w.enterStep_entered m order z k hc hb
  exact ⟨d, Works.settle_ctx_of_rests m order z entered.rests _ hd, entered, hd⟩

end

end Sys2Proof.Machine
end


section
/-!
SUPPORT. The choice of the plan in use, and the beginning of a plan: O33.
-/

namespace Sys2Proof.Machine

/-! ### The plan in use (R27) -/

section
variable (m : Pmc) (b : BlockId) (own : Option BlockId)

/-- A block is usable when it is VALID and under no operation (R27). -/
theorem Pmc.usable_iff : m.usable b = true ↔ (m.block b).state = .valid
    ∧ ∀ op, (∃ d, m.ctrl = .busy op d) ∨ (∃ left, m.ctrl = .suspended op left) → op.target ≠ b := by
  rw [Pmc.usable, Bool.and_eq_true, beq_iff_eq, bne_iff_ne]
  refine and_congr_right fun _ => ?_
  cases m.ctrl <;> simp [Ctrl.target]

theorem Pmc.choosePlan_own (h : m.usable b = true) : m.choosePlan (some b) = .own b := if_pos h

theorem Pmc.choosePlan_of_not_own (h : ¬ ∃ b, own = some b ∧ m.usable b = true) :
    m.choosePlan own = if m.usable 0 then .fallback else .none := by
  cases own with
  | none => rfl
  | some b => exact if_neg fun k => h ⟨b, rfl, k⟩

end

/-! ### The beginning (R20) -/

/-- The context of a zone that begins a plan of `steps` steps, before it enters step 1 (R20). -/
def Ctx.begun (plan : PlanInUse) (steps : Nat) (cls : ExecClass) : Ctx :=
  ⟨plan, steps, 1, .established, cls, [], [], .stopped, none, 0, []⟩

section
variable (m : Pmc) (order : List ZoneId) (z : ZoneId) (cls : ExecClass) (own : Option BlockId) (w : Works)

theorem Works.begin_own {b : BlockId} (h : m.choosePlan own = .own b) :
    w.begin m order z cls own
      = ((w.setCtx z (some (Ctx.begun (.own b) (m.planSteps b) cls))).enterStep m order z 1).settle m order := by
  rw [Works.begin, h]
  rfl

theorem Works.begin_fallback (h : m.choosePlan own = .fallback) :
    w.begin m order z cls own
      = (((w.setCtx z (some (Ctx.begun .fallback (m.planSteps 0) cls))).report .planMissing (some (.zone z))
        (some (.block 0)) (some (.planMissing .fallback))).enterStep m order z 1).settle m order := by
  rw [Works.begin, h]
  rfl

/-- Without a plan nothing is posted (R28). -/
theorem Works.begin_none (h : m.choosePlan own = .none) (settled : w.plant.Settled) :
    w.begin m order z cls own = (w.setCtx z (some (Ctx.begun .none 0 cls))).report .planMissing (some (.zone z)) none
      (some (.planMissing .none)) := by
  have unposted (v : Works) (hv : v.ctx z = some (Ctx.begun .none 0 cls)) : v.enterStep m order z 1 = v := by
    rw [Works.enterStep, hv]
    rfl
  rw [Works.begin, h]
  dsimp only [PlanInUse.block]
  rw [unposted _ (by rw [Works.report_ctx]; exact Works.setCtx_ctx_same ..)]
  exact Works.settle_of_settled m order _ settled

end

/-- Settles O33: by the plan chosen. -/
theorem aZoneBeginsWithThePlanInUse : Obligations.AZoneBeginsWithThePlanInUse := by
  intro m order z cls own w
  dsimp only
  simp only [← Pmc.usable_iff]
  have sequencing (v : Works) (plan : PlanInUse) (b : BlockId) (hb : plan.block = some b)
      (hv : v.ctx z = some (Ctx.begun plan (m.planSteps b) cls)) :
      ∃ c, ((v.enterStep m order z 1).settle m order).ctx z = some c ∧ c.plan = plan ∧ c.cls = cls ∧ c.step = 1
        ∧ c.phase = .sequencing ∧ c.outcomes = [] ∧ c.steps = m.planSteps b ∧ (∃ d, c.dwell = .running d)
        ∧ c.timeout.isSome = true := by
    obtain ⟨d, hd, entered, -⟩ := v.enterStep_settle_entered m order z 1 hv (by rw [Ctx.begun, hb]; rfl)
    exact ⟨d, hd, entered.plan, entered.cls, entered.step, entered.phase, entered.outcomes, entered.steps, entered.dwell,
      entered.timeout⟩
  refine ⟨fun b hown hb => ?_, fun notOwn usable => ?_, fun notOwn notUsable settled => ?_⟩
  · subst hown
    rw [w.begin_own m order z cls _ (m.choosePlan_own b hb)]
    exact ⟨sequencing _ _ b rfl (Works.setCtx_ctx_same ..), rfl⟩
  · have chosen : m.choosePlan own = .fallback := by rw [m.choosePlan_of_not_own own notOwn, if_pos usable]
    rw [w.begin_fallback m order z cls _ chosen]
    refine ⟨sequencing _ _ 0 rfl (Works.setCtx_ctx_same ..), rfl, ?_⟩
    have runs := Works.enterStep_settle_runs m order z 1 ((w.setCtx z (some (Ctx.begun .fallback (m.planSteps 0) cls))).report
      .planMissing (some (.zone z)) (some (.block 0)) (some (.planMissing .fallback)))
    exact Plant.Runs.joins (x := w.plant) runs
  · have chosen : m.choosePlan own = .none := by rw [m.choosePlan_of_not_own own notOwn, if_neg notUsable]
    exact w.begin_none m order z cls own chosen settled

end Sys2Proof.Machine
end


section
/-!
SUPPORT. Proof, and the end of a step by its dwell or its timeout: O34.
-/

namespace Sys2Proof.Machine

/-! ### Proof (R33) -/

/-- Two positions are the same for proof when they are equal, or both ON. -/
theorem Position.sameForProof_iff (p q : Position) :
    p.sameForProof q = true ↔ p = q ∨ ∃ v r, p = .fan (.on v) ∧ q = .fan (.on r) := by
  cases p with
  | damper p => cases q <;> simp [Position.sameForProof]
  | fan t =>
    cases q with
    | damper q => cases t <;> simp [Position.sameForProof]
    | fan u => cases t <;> cases u <;> simp [Position.sameForProof]

section
variable (x : Plant) (e : ActId × Position)

theorem Plant.contested_iff : x.contested e = true ↔ ∃ r, x.resolved e.1 = some r ∧ r.pos.sameForProof e.2 = false := by
  unfold Plant.contested
  cases x.resolved e.1 <;> simp

theorem Plant.proven_iff : x.proven e = true
    ↔ ∃ r, x.resolved e.1 = some r ∧ r.pos.sameForProof e.2 = true ∧ (x.chans.look e.1).standsAt e.2 = true := by
  unfold Plant.proven
  cases x.resolved e.1 <;> simp

end

/-! ### Proof under a later Timebase -/

section
variable (x : Plant) (d : Nat) (a : ActId)

/-- The passing of the Timebase leaves every channel but the duty of its speed reference (R84). -/
theorem Plant.reach_look : (x.reach d).chans.look a = x.chans.look a ∨ (x.reach d).chans.look a = (x.chans.look a).takeDuty := by
  rw [Plant.reach_chans, Plant.chansAt]
  split
  · exact .inr (Table.look_map _ _ _)
  · exact .inl rfl

theorem Plant.reach_resolved : (x.reach d).resolved a = x.resolved a := by
  have rest (c : Channel) : c.takeDuty.restPos = c.restPos := by cases c <;> rfl
  unfold Plant.resolved resolve
  obtain e | e := x.reach_look d a <;> rw [e, Plant.reach_demands]
  rw [rest]

theorem Channel.takeDuty_standsAt (c : Channel) (p : Position) : c.takeDuty.standsAt p = c.standsAt p := by
  cases c with
  | unassigned => rfl
  | damper d => rfl
  | fan f =>
    cases p with
    | damper q => rfl
    | fan t => cases t <;> rfl

theorem Plant.reach_standsAt (p : Position) : ((x.reach d).chans.look a).standsAt p = (x.chans.look a).standsAt p := by
  obtain e | e := x.reach_look d a <;> rw [e]
  exact Channel.takeDuty_standsAt ..

theorem Plant.reach_contested : (x.reach d).contested = x.contested := by
  funext e
  rw [Plant.contested, Plant.reach_resolved, Plant.contested]

theorem Plant.reach_proven : (x.reach d).proven = x.proven := by
  funext e
  rw [Plant.proven, Plant.reach_resolved, Plant.reach_standsAt, Plant.proven]

theorem Plant.reach_proofHolds (c : Ctx) : (x.reach d).proofHolds c = x.proofHolds c := by
  rw [Plant.proofHolds, Plant.reach_proven, Plant.reach_contested, Plant.proofHolds]

theorem Plant.reach_contestedActs (c : Ctx) : (x.reach d).contestedActs c = x.contestedActs c := by
  rw [Plant.contestedActs, Plant.reach_contested, Plant.contestedActs]

theorem Plant.reach_unprovenActs (c : Ctx) : (x.reach d).unprovenActs c = x.unprovenActs c := by
  rw [Plant.unprovenActs, Plant.reach_proven, Plant.reach_contested, Plant.unprovenActs]

end

/-! ### The end of a step (R35, R36, R38) -/

/-- The context of a zone whose step has ended with outcome `o` (R35, R36). -/
def Ctx.ended (c : Ctx) (o : StepOutcome) : Ctx := { c with dwell := .stopped, timeout := none, outcomes := c.outcomes ++ [o] }

/-- The context of a zone that has arrived at ESTABLISHED with the end of its last step (R38). -/
def Ctx.last (c : Ctx) (o : StepOutcome) : Ctx := { c.ended o with phase := .established, proof := [] }

/-- The works with `k` the context of zone `z`, and the end of step `c.step` reported with number `n` (R44). -/
def Works.reported (w : Works) (z : ZoneId) (c k : Ctx) (kind : ReportKind) (n : Nat) : Works :=
  (w.setCtx z (some k)).report kind (some (.zone z)) (some (.step c.step)) (some (.count n))

theorem Works.setCtx_setCtx (w : Works) (z : ZoneId) (c d : Option Ctx) : (w.setCtx z c).setCtx z d = w.setCtx z d := by
  have put : (w.px.put z c).put z d = w.px.put z d := by
    refine Table.ext_look _ _ fun y => ?_
    rw [Table.look_put, Table.look_put, Table.look_put]
    split <;> rfl
  rw [Works.setCtx, Works.setCtx, Works.setCtx, put]

section
variable (m : Pmc) (order : List ZoneId) (z : ZoneId) (w : Works)

theorem Works.reported_ctx (c k : Ctx) (kind : ReportKind) (n : Nat) : (w.reported z c k kind n).ctx z = some k := by
  rw [Works.reported, Works.report_ctx, Works.setCtx_ctx_same]

/-- COMPLETE ends the step with its contested actuators (R35). -/
theorem Works.endComplete_eq {c : Ctx} (hc : w.ctx z = some c) :
    w.endComplete m order z = (w.reported z c (c.ended ⟨.complete, w.plant.contestedActs c, []⟩) .stepDone
      (w.plant.contestedActs c).length).advance m order z := by
  rw [Works.endComplete, hc]
  dsimp only
  rw [w.modCtx_of_ctx z hc]
  rfl

/-- INCOMPLETE ends the step with its contested and its unproven actuators (R36). -/
theorem Works.endIncomplete_eq {c : Ctx} (hc : w.ctx z = some c) :
    w.endIncomplete m order z = (w.reported z c (c.ended ⟨.incomplete, w.plant.contestedActs c, w.plant.unprovenActs c⟩)
      .stepIncomplete (w.plant.unprovenActs c).length).advance m order z := by
  rw [Works.endIncomplete, hc]
  dsimp only
  rw [w.modCtx_of_ctx z hc]
  rfl

theorem Works.judge_of_proven {c : Ctx} (hc : w.ctx z = some c) (phase : c.phase = .sequencing) (dwell : c.dwell = .expired)
    (holds : w.plant.proofHolds c = true) : w.judge m order z = w.endComplete m order z := by
  rw [Works.judge, hc]
  exact if_pos ⟨phase, dwell, holds⟩

theorem Works.judge_of_unproven {c : Ctx} (hc : w.ctx z = some c) (unproven : w.plant.proofHolds c = false) :
    w.judge m order z = w := by
  rw [Works.judge, hc]
  exact if_neg fun h => by rw [unproven] at h; cases h.2.2

variable (c : Ctx) (o : StepOutcome) (kind : ReportKind) (n : Nat)

theorem Works.advance_ended_of_more (h : c.step < c.steps) : (w.reported z c (c.ended o) kind n).advance m order z
    = (w.reported z c (c.ended o) kind n).enterStep m order z (c.step + 1) := by
  rw [Works.advance, Works.reported_ctx]
  exact if_pos h

theorem Works.advance_ended_of_last (h : c.steps ≤ c.step) : (w.reported z c (c.ended o) kind n).advance m order z
    = (w.reported z c (c.last o) kind n).established z := by
  have last : (w.reported z c (c.ended o) kind n).setCtx z (some (c.last o)) = w.reported z c (c.last o) kind n :=
    congrArg (fun v : Works => v.report kind (some (.zone z)) (some (.step c.step)) (some (.count n)))
      (w.setCtx_setCtx z _ _)
  rw [Works.advance, Works.reported_ctx]
  refine (if_neg (Nat.not_lt.mpr h)).trans ?_
  rw [Works.modCtx_of_ctx z _ (Works.reported_ctx ..), ← last]
  rfl

/-- From the report of a step's end on, the channel side goes on. -/
theorem Works.advance_ended_runs : Plant.Runs (w.plant.report kind (some (.zone z)) (some (.step c.step)) (some (.count n)))
    ((w.reported z c (c.ended o) kind n).advance m order z).plant :=
  Works.advance_runs m order z (w.reported z c (c.ended o) kind n)

/-- With a step left the zone enters it (R38). -/
theorem Works.advance_ended_entered (hb : c.plan.block.isSome = true) (h : c.step < c.steps) :
    ∃ k, ((w.reported z c (c.ended o) kind n).advance m order z).ctx z = some k ∧ (c.ended o).Entered (c.step + 1) k := by
  rw [w.advance_ended_of_more m order z c o kind n h]
  exact Works.enterStep_entered m order z _ _ (w.reported_ctx z c _ kind n) hb

theorem Works.established_ctx (v : Works) : (v.established z).ctx = v.ctx := by
  unfold Works.established
  split
  · split <;> rfl
  · rfl

/-- After its last step the zone is ESTABLISHED (R38). -/
theorem Works.advance_ended_ctx_of_last (h : c.steps ≤ c.step) :
    ((w.reported z c (c.ended o) kind n).advance m order z).ctx z = some (c.last o) := by
  rw [w.advance_ended_of_last m order z c o kind n h, Works.established_ctx, Works.reported_ctx]

/-- A zone that is not under test brings nothing else by its arrival at ESTABLISHED (R121). -/
theorem Works.advance_ended_of_other (h : c.steps ≤ c.step) (apart : ∀ u, w.ts.test = some u → u.zone ≠ z) :
    (w.reported z c (c.ended o) kind n).advance m order z = w.reported z c (c.last o) kind n := by
  rw [w.advance_ended_of_last m order z c o kind n h]
  exact Works.established_of_other z _ apart

/-- The zone under test is then in its hold (R121). -/
theorem Works.advance_ended_hold {u : Test} (h : c.steps ≤ c.step) (ht : w.ts.test = some u) (hu : u.zone = z) :
    ((w.reported z c (c.ended o) kind n).advance m order z).ts.test
      = some ⟨z, u.hold, .hold (w.plant.now + u.hold * 1000)⟩ := by
  have test : (w.reported z c (c.last o) kind n).ts.test = some u := ht
  rw [w.advance_ended_of_last m order z c o kind n h, Works.established, test]
  subst hu
  exact congrArg (fun v : Works => v.ts.test) (if_pos rfl)

end

/-! ### The expiries -/

/-- The works with the dwell of zone `z` expired at deadline `d` (R35). -/
def Works.dwelt (w : Works) (z : ZoneId) (c : Ctx) (d : Nat) : Works :=
  ({ w with plant := w.plant.reach d } : Works).setCtx z (some { c with dwell := .expired })

theorem Works.dwelt_ctx (w : Works) (z : ZoneId) (c : Ctx) (d : Nat) :
    (w.dwelt z c d).ctx z = some { c with dwell := .expired } := Works.setCtx_ctx_same ..

/-- The expired dwell leaves no trace in the end of the step. -/
theorem Works.dwelt_reported (w : Works) (z : ZoneId) (c : Ctx) (d : Nat) (o : StepOutcome) (kind : ReportKind) (n : Nat) :
    (w.dwelt z c d).reported z { c with dwell := .expired } (Ctx.ended { c with dwell := .expired } o) kind n
      = ({ w with plant := w.plant.reach d } : Works).reported z c (c.ended o) kind n :=
  congrArg (fun v : Works => v.report kind (some (.zone z)) (some (.step c.step)) (some (.count n)))
    (Works.setCtx_setCtx { w with plant := w.plant.reach d } z _ _)

section
variable (m : Pmc) (order : List ZoneId) (z : ZoneId) (w : Works) {c : Ctx} (hc : w.ctx z = some c)
include hc

theorem Works.dwellExpiry_of_ctx {d : Nat} (dwell : c.dwell = .running d) :
    w.dwellExpiry m order z = ((w.dwelt z c d).judge m order z).settle m order := by
  rw [Works.dwellExpiry, hc]
  dsimp only
  rw [dwell]
  dsimp only
  rw [Works.modCtx_of_ctx z (w.onPlant fun x => x.reach d) hc]
  rfl

/-- A dwell expiry with proof ends the step COMPLETE at the deadline or later (R35). -/
theorem Works.dwellExpiry_of_proven {d : Nat} (dwell : c.dwell = .running d) (phase : c.phase = .sequencing)
    (holds : w.plant.proofHolds c = true) : w.dwellExpiry m order z
      = ((({ w with plant := w.plant.reach d } : Works).reported z c (c.ended ⟨.complete, w.plant.contestedActs c, []⟩)
        .stepDone (w.plant.contestedActs c).length).advance m order z).settle m order := by
  have proven : (w.dwelt z c d).plant.proofHolds { c with dwell := .expired } = true :=
    (w.plant.reach_proofHolds d _).trans holds
  have contested : (w.dwelt z c d).plant.contestedActs { c with dwell := .expired } = w.plant.contestedActs c :=
    w.plant.reach_contestedActs d _
  rw [w.dwellExpiry_of_ctx m order z hc dwell, Works.judge_of_proven m order z _ (w.dwelt_ctx z c d) phase rfl proven,
    Works.endComplete_eq m order z _ (w.dwelt_ctx z c d), contested, Works.dwelt_reported]

/-- A dwell expiry without proof leaves the step to go on (R35). -/
theorem Works.dwellExpiry_of_unproven {d : Nat} (dwell : c.dwell = .running d) (unproven : w.plant.proofHolds c = false)
    (settled : w.plant.Settled) : w.dwellExpiry m order z = w.dwelt z c d := by
  rw [w.dwellExpiry_of_ctx m order z hc dwell,
    Works.judge_of_unproven m order z _ (w.dwelt_ctx z c d) ((w.plant.reach_proofHolds d _).trans unproven)]
  exact Works.settle_of_settled m order _ settled

/-- A step timeout ends the step INCOMPLETE (R36). -/
theorem Works.stepTimeoutExpiry_of_ctx {d : Nat} (timeout : c.timeout = some d) : w.stepTimeoutExpiry m order z
    = ((({ w with plant := w.plant.reach d } : Works).reported z c
        (c.ended ⟨.incomplete, w.plant.contestedActs c, w.plant.unprovenActs c⟩)
        .stepIncomplete (w.plant.unprovenActs c).length).advance m order z).settle m order := by
  rw [Works.stepTimeoutExpiry, hc]
  dsimp only
  rw [timeout]
  dsimp only
  rw [Works.endIncomplete_eq m order z (w.onPlant fun x => x.reach d) hc, Works.onPlant_plant, Plant.reach_contestedActs,
    Plant.reach_unprovenActs]
  rfl

end

theorem State.whenRunning_of_running (s : State) (g : State → State) (h : s.mode = .running) : s.whenRunning g = g s :=
  if_pos (beq_iff_eq.mpr h)

/-! ### Proof as the statement says it -/

/-- Proof and its two lists, from any spelling of proven and contested (R33, R35, R36). -/
theorem Plant.proof_of_iff (x : Plant) (c : Ctx) (proven contested : ActId × Position → Prop)
    (hp : ∀ e, proven e ↔ x.proven e = true) (hc : ∀ e, contested e ↔ x.contested e = true) :
    (x.proofHolds c = true ↔ ∀ e ∈ c.proof, proven e ∨ contested e)
      ∧ (∀ keep : ActId × Position → Bool, (∀ e, keep e = true ↔ contested e) →
        x.contestedActs c = (c.proof.filter keep).map Prod.fst)
      ∧ ∀ keep : ActId × Position → Bool, (∀ e, keep e = true ↔ ¬ proven e ∧ ¬ contested e) →
        x.unprovenActs c = (c.proof.filter keep).map Prod.fst := by
  refine ⟨?_, fun keep h => ?_, fun keep h => ?_⟩
  · simp only [Plant.proofHolds, List.all_eq_true, Bool.or_eq_true, hp, hc]
  · have same : keep = x.contested := funext fun e => Bool.eq_iff_iff.mpr ((h e).trans (hc e))
    rw [same, Plant.contestedActs]
  · have same : keep = fun e => !(x.proven e || x.contested e) := funext fun e => Bool.eq_iff_iff.mpr <| by
      simp [h, hp, hc]
    rw [same, Plant.unprovenActs]

/-- Settles O34: an expiry ends the step and settling leaves what the end brings. -/
theorem aStepEndsByItsDwellOrItsTimeout : Obligations.AStepEndsByItsDwellOrItsTimeout := by
  refine ⟨?_, ?_⟩
  · intro x c resolved same stands proven contested
    have hresolved (a : ActId) : resolved a = (x.resolved a).map Resolved.pos := by
      simp only [resolved, Plant.resolved, resolve]
      cases x.chans.look a <;> cases x.demands.look a <;> rfl
    have hsame (p q : Position) : same p q ↔ p.sameForProof q = true := (p.sameForProof_iff q).symm
    have hstands (a : ActId) (p : Position) : stands a p ↔ (x.chans.look a).standsAt p = true := by
      simp only [stands]
      cases x.chans.look a with
      | unassigned => simp [Channel.standsAt]
      | damper e =>
        cases p with
        | damper q => cases q <;> simp [Channel.standsAt, DamperPos.atState]
        | fan t => simp [Channel.standsAt]
      | fan f =>
        cases p with
        | damper q => simp [Channel.standsAt]
        | fan t => cases t <;> simp [Channel.standsAt]
    refine x.proof_of_iff c proven contested (fun e => ?_) fun e => ?_
    · simp only [proven, hresolved, hsame, hstands, x.proven_iff, Option.map_eq_some_iff, exists_exists_and_eq_and]
    · simp only [contested, hresolved, hsame, x.contested_iff, Option.map_eq_some_iff, exists_exists_and_eq_and,
        Bool.not_eq_true]
  · intro s z c running hc hb m order contested unproven reached ends
    have finish (d : Nat) (o : StepOutcome) (kind : ReportKind) (n : Nat) (t : State) (g : Pmc → List ZoneId → Works → Works)
        (ht : t = s.onWorks g) (hg : g m order s.site.works
          = (((reached d).reported z c (c.ended o) kind n).advance m order z).settle m order) : ends d o kind n t := by
      have works : t.site.works = (((reached d).reported z c (c.ended o) kind n).advance m order z).settle m order := by
        rw [ht, ← hg]
        rfl
      have runs := (Works.advance_ended_runs m order z (reached d) c o kind n).trans (Works.settle_runs m order _)
      have now := (Works.settle_evolves m order (((reached d).reported z c (c.ended o) kind n).advance m order z)).now.trans
        (Works.advance_steps m order z _).now
      rw [← works] at runs now
      refine ⟨now, by rw [ht]; rfl, by rw [ht]; rfl, by rw [ht]; rfl, runs.joins.1, runs.joins.2, fun more => ⟨?_, ?_⟩,
        fun last => ?_⟩
      · rw [works, Works.advance_ended_of_more m order z _ c o kind n more]
        rfl
      · obtain ⟨k, hk, entered⟩ := Works.advance_ended_entered m order z (reached d) c o kind n hb more
        exact ⟨k, works ▸ Works.settle_ctx_of_rests m order z entered.rests _ hk, entered.step, entered.phase, entered.outcomes⟩
      · have hlast := Works.advance_ended_ctx_of_last m order z (reached d) c o kind n last
        have rests : (c.last o).Rests := Ctx.rests_of_established rfl
        have other (h : ∀ u, s.site.works.ts.test = some u → u.zone ≠ z) :=
          works.trans (congrArg (Works.settle m order) (Works.advance_ended_of_other m order z (reached d) c o kind n last h))
        refine ⟨works ▸ Works.settle_ctx_of_rests m order z rests _ hlast, fun u hu apart => other fun u' hu' => ?_,
          fun untested => other fun u' hu' => ?_, fun u hu same => ?_⟩
        · rw [hu, Option.some_inj] at hu'
          exact hu' ▸ apart
        · rw [untested] at hu'
          cases hu'
        · have hold := Works.advance_ended_hold m order z (reached d) c o kind n last hu same
          rw [works]
          exact Works.settle_test_of_rests m order _ hold hlast rests
    refine ⟨fun d dwell phase => ⟨_, rfl, fun holds => ?_, fun unproved settled => ?_⟩, fun d timeout => ⟨_, rfl, ?_⟩⟩
    · exact finish d _ _ _ _ _ (s.whenRunning_of_running _ running)
        (s.site.works.dwellExpiry_of_proven m order z hc dwell phase holds)
    · rw [s.whenRunning_of_running _ running]
      exact ⟨s.site.works.dwellExpiry_of_unproven m order z hc dwell unproved settled, rfl, rfl⟩
    · exact finish d _ _ _ _ _ (s.whenRunning_of_running _ running)
        (s.site.works.stepTimeoutExpiry_of_ctx m order z hc timeout)

end Sys2Proof.Machine
end


section
/-!
SUPPORT. What a change calls for: the turns in which the zones evaluate, and the step that ends in its turn: O35.
-/

namespace Sys2Proof.Machine

/-! ### What an entry to a step goes by -/

/-- A channel's kind and its configuration decide what fits it and what it raises an entry to (R31, R32). -/
theorem Channel.fits_raised_congr {c d : Channel} (h : c.config = d.config) (p : Position) :
    c.fits p = d.fits p ∧ c.raised p = d.raised p := by
  cases c with
  | unassigned =>
    cases d with
    | unassigned => exact ⟨rfl, rfl⟩
    | damper f => cases h
    | fan f => cases h
  | damper e =>
    cases d with
    | unassigned => cases h
    | damper f => cases p <;> exact ⟨rfl, rfl⟩
    | fan f => cases h
  | fan f =>
    cases d with
    | unassigned => cases h
    | damper e => cases h
    | fan g =>
      have cfg : f.cfg = g.cfg := ChanCfg.fan.inj h
      cases p with
      | damper q => exact ⟨rfl, rfl⟩
      | fan t => cases t <;> simp [Channel.fits, Channel.raised, cfg]

/-- Two works between which an entry of zone `z` to a step does not tell: its context, the Timebase and the configuration of the
channels are the same. -/
structure Works.Alike (z : ZoneId) (v w : Works) : Prop where
  ctx : v.ctx z = w.ctx z
  now : v.plant.now = w.plant.now
  config : ∀ a, (v.plant.chans.look a).config = (w.plant.chans.look a).config

section
variable (m : Pmc) (order : List ZoneId) (z : ZoneId) (k : Nat) {v w : Works} (h : Works.Alike z v w)
include h

theorem Works.Alike.modCtx (g : Ctx → Ctx) : Works.Alike z (v.modCtx z g) (w.modCtx z g) where
  ctx := by rw [Works.modCtx_ctx_same, Works.modCtx_ctx_same, h.ctx]
  now := by rw [Works.modCtx_plant, Works.modCtx_plant, h.now]
  config := by rw [Works.modCtx_plant, Works.modCtx_plant]; exact h.config

theorem Works.Alike.postEntry (e : PlanEntry) : Works.Alike z (v.postEntry order z k e) (w.postEntry order z k e) where
  ctx := by
    cases hw : w.ctx z with
    | none =>
      rw [Works.postEntry, Works.postEntry, h.ctx, hw]
      exact h.ctx
    | some c =>
      have hv := h.ctx.trans hw
      obtain ⟨fits, raised⟩ := Channel.fits_raised_congr (h.config e.act) e.pos
      cases hf : (w.plant.chans.look e.act).fits e.pos with
      | true =>
        rw [(w.postEntry_of_fits order z k e hw hf).2.1, (v.postEntry_of_fits order z k e hv (fits.trans hf)).2.1,
          raised]
      | false =>
        rw [w.postEntry_of_misfit order z k e hw hf, v.postEntry_of_misfit order z k e hv (fits.trans hf), Works.report_ctx,
          Works.report_ctx, Works.setCtx_ctx_same, Works.setCtx_ctx_same]
  now := by rw [(v.postEntry_steps order z k e).now, (w.postEntry_steps order z k e).now, h.now]
  config a := by rw [(v.postEntry_runs order z k e).config, (w.postEntry_runs order z k e).config, h.config]

theorem Works.Alike.postEntries (l : List PlanEntry) :
    Works.Alike z (l.foldl (Works.postEntry order z k) v) (l.foldl (Works.postEntry order z k) w) := by
  induction l generalizing v w with
  | nil => exact h
  | cons e l ih => exact ih (h.postEntry order z k e)

theorem Works.Alike.enterStep_ctx : (v.enterStep m order z k).ctx z = (w.enterStep m order z k).ctx z := by
  cases hw : w.ctx z with
  | none =>
    rw [Works.enterStep, Works.enterStep, h.ctx, hw]
    exact h.ctx
  | some c =>
    cases hb : c.plan.block with
    | none =>
      simp only [Works.enterStep, h.ctx, hw, hb]
    | some b =>
      have posted := (h.modCtx z fun c =>
        { c with step := k, phase := .sequencing, proof := [], dwell := .stopped, timeout := none }).postEntries order z k
          (m.planStep b k).entries
      simp only [Works.enterStep, h.ctx, hw, hb, Works.modCtx_ctx_same, posted.ctx, posted.now]

end

/-- The end of a step reported keeps works alike. -/
theorem Works.Alike.reported {z : ZoneId} {v w : Works} (h : Works.Alike z v w) (c k : Ctx) (kind : ReportKind) (n : Nat) :
    Works.Alike z (v.reported z c k kind n) (w.reported z c k kind n) where
  ctx := by rw [Works.reported_ctx, Works.reported_ctx]
  now := h.now
  config := h.config

/-! ### Turns (R34) -/

/-- The turn of zone `z`: it evaluates where its proof set holds a changed channel. -/
def Works.turn (m : Pmc) (order : List ZoneId) (due : List ActId) (w : Works) (z : ZoneId) : Works :=
  if w.concerned z due then w.judge m order z else w

section
variable (m : Pmc) (order : List ZoneId) (due : List ActId) (w : Works) (z : ZoneId)

/-- A round takes up the changed channels and gives every zone its turn. -/
theorem Works.round_eq : w.round m order
    = (w.judges order).foldl (Works.turn m order w.plant.pxDue) { w with plant := { w.plant with pxDue := [] } } := rfl

theorem Works.turn_of_concerned (h : w.concerned z due = true) : w.turn m order due z = w.judge m order z := if_pos h

theorem Works.turn_of_unconcerned (h : w.concerned z due = false) : w.turn m order due z = w :=
  if_neg (Bool.eq_false_iff.mp h)

theorem Works.concerned_iff : w.concerned z due = true ↔ ∃ c, w.ctx z = some c ∧ ∃ e ∈ c.proof, e.1 ∈ due := by
  unfold Works.concerned
  cases w.ctx z <;> simp

theorem Works.turns_of_unconcerned (l : List ZoneId) (h : ∀ z ∈ l, w.concerned z due = false) :
    l.foldl (Works.turn m order due) w = w := by
  induction l with
  | nil => rfl
  | cons z l ih =>
    rw [List.foldl_cons, w.turn_of_unconcerned m order due z (h z List.mem_cons_self)]
    exact ih fun y hy => h y (List.mem_cons_of_mem z hy)

theorem Works.turn_runs : Plant.Runs w.plant (w.turn m order due z).plant := by
  unfold Works.turn
  split
  · exact w.judge_runs m order z
  · exact .refl _

theorem Works.turns_runs (l : List ZoneId) : Plant.Runs w.plant (l.foldl (Works.turn m order due) w).plant := by
  induction l generalizing w with
  | nil => exact .refl _
  | cons z l ih => exact (w.turn_runs m order due z).trans (ih _)

theorem Works.turn_ctx_of_rests {c : Ctx} (hc : w.ctx z = some c) (h : c.Rests) (y : ZoneId) :
    (w.turn m order due y).ctx z = some c := by
  unfold Works.turn
  split
  · exact w.judge_ctx_of_rests m order z hc h y
  · exact hc

/-- A resting zone's context stands through the turns of any zones. -/
theorem Works.turns_ctx_of_rests {c : Ctx} (hc : w.ctx z = some c) (h : c.Rests) (l : List ZoneId) :
    (l.foldl (Works.turn m order due) w).ctx z = some c := by
  induction l generalizing w with
  | nil => exact hc
  | cons y l ih => exact ih _ (w.turn_ctx_of_rests m order due z hc h y)

end

/-! ### The first turn that a change brings -/

/-- The works when the turns of a first round begin: the notes and the changed channels are taken up. -/
def Works.taken (w : Works) : Works := { w.takeNotes with plant := { w.takeNotes.plant with pxDue := [] } }

section
variable (m : Pmc) (order : List ZoneId) (w : Works)

theorem Works.taken_plant : w.taken.plant = { w.plant with notes := [], pxDue := [] } := by
  rw [Works.taken, w.takeNotes_keeps.1]

theorem Works.taken_ctx : w.taken.ctx = w.ctx := w.takeNotes_ctx

theorem Works.taken_alike (z : ZoneId) : Works.Alike z w.taken w where
  ctx := by rw [w.taken_ctx]
  now := by rw [w.taken_plant]
  config a := by rw [w.taken_plant]

theorem Works.taken_judges : w.takeNotes.judges order = w.judges order := by
  rw [Works.judges, w.takeNotes_keeps.2.2, Works.judges]

/-- With a changed channel waiting, settling is one round and the rounds that are left. -/
theorem Works.settle_of_due (h : w.plant.pxDue ≠ []) :
    w.settle m order = ((w.judges order).foldl (Works.turn m order w.plant.pxDue) w.taken).settleFor m order 50 := by
  have due : w.takeNotes.plant.pxDue = w.plant.pxDue := by rw [w.takeNotes_keeps.1]
  have waiting : w.takeNotes.plant.pxDue.isEmpty = false := by rw [due, List.isEmpty_eq_false_iff]; exact h
  rw [Works.settle, settleRounds, Works.settleFor]
  rw [waiting, if_neg Bool.false_ne_true, Works.round_eq, due, Works.taken_judges]
  rfl

/-- The zone whose turn comes first among those that a change concerns evaluates, and then the others have their turns. -/
theorem Works.settle_of_first {z : ZoneId} {front back : List ZoneId} (split : w.judges order = front ++ z :: back)
    (ahead : ∀ y ∈ front, w.concerned y w.plant.pxDue = false) (h : w.concerned z w.plant.pxDue = true) :
    w.settle m order
      = (back.foldl (Works.turn m order w.plant.pxDue) (w.taken.judge m order z)).settleFor m order 50 := by
  have same (y : ZoneId) : w.taken.concerned y w.plant.pxDue = w.concerned y w.plant.pxDue := by
    rw [Works.concerned, w.taken_ctx, Works.concerned]
  have due : w.plant.pxDue ≠ [] := fun none => by
    obtain ⟨c, -, e, -, he⟩ := (w.concerned_iff _ z).mp h
    rw [none] at he
    cases he
  rw [w.settle_of_due m order due, split, List.foldl_append, List.foldl_cons,
    Works.turns_of_unconcerned m order _ w.taken front fun y hy => (same y).trans (ahead y hy),
    Works.turn_of_concerned m order _ w.taken z ((same z).trans h)]

end

/-- A zone whose dwell has expired, with proof, ends its step where its turn comes first (R34, R35). -/
theorem Works.settle_of_first_proven (m : Pmc) (order : List ZoneId) (w : Works) {z : ZoneId} {c : Ctx} {front back : List ZoneId}
    (hc : w.ctx z = some c) (phase : c.phase = .sequencing) (dwell : c.dwell = .expired) (holds : w.plant.proofHolds c = true)
    (due : ∃ e ∈ c.proof, e.1 ∈ w.plant.pxDue) (split : w.judges order = front ++ z :: back)
    (ahead : ∀ y ∈ front, ∀ k, w.ctx y = some k → ∀ e ∈ k.proof, e.1 ∉ w.plant.pxDue) :
    w.settle m order = (back.foldl (Works.turn m order w.plant.pxDue)
      ((w.taken.reported z c (c.ended ⟨.complete, w.plant.contestedActs c, []⟩) .stepDone
        (w.plant.contestedActs c).length).advance m order z)).settleFor m order 50 := by
  have unconcerned (y : ZoneId) (hy : y ∈ front) : w.concerned y w.plant.pxDue = false :=
    Bool.eq_false_iff.mpr fun called => by
      obtain ⟨k, hk, e, he, changed⟩ := (w.concerned_iff _ y).mp called
      exact ahead y hy k hk e he changed
  have taken : w.taken.ctx z = some c := by rw [w.taken_ctx, hc]
  have proven : w.taken.plant.proofHolds c = true := by rw [w.taken_plant]; exact holds
  have contested : w.taken.plant.contestedActs c = w.plant.contestedActs c := by rw [w.taken_plant]; rfl
  rw [w.settle_of_first m order split unconcerned ((w.concerned_iff _ z).mpr ⟨c, hc, due⟩),
    Works.judge_of_proven m order z _ taken phase dwell proven, Works.endComplete_eq m order z _ taken, contested]

/-- Settles O35: the zone's turn comes first, and it rests from the end of its step on. -/
theorem aChangeThatMakesProofHoldEndsTheStep : Obligations.AChangeThatMakesProofHoldEndsTheStep := by
  refine ⟨fun s g => rfl, ?_⟩
  intro m order w z c hc
  dsimp only
  refine ⟨fun resting => ?_, fun phase dwell hb holds due ⟨front, back, split, ahead⟩ => ?_⟩
  · refine Works.settle_ctx_of_rests m order z ?_ w hc
    obtain ⟨d, running⟩ | established := resting
    · exact Ctx.rests_of_running running
    · exact Ctx.rests_of_established established
  · have settled := w.settle_of_first_proven m order hc phase dwell holds due split ahead
    generalize w.plant.contestedActs c = contested at settled ⊢
    have runs := ((Works.advance_ended_runs m order z w.taken c ⟨.complete, contested, []⟩ .stepDone contested.length).trans
      (Works.turns_runs m order w.plant.pxDue _ back)).trans (Works.settleFor_runs m order _ 50)
    rw [← settled, w.taken_plant] at runs
    obtain ⟨ff, bl⟩ := runs.joins
    have stays {k : Ctx} (rests : k.Rests) (hk : ((w.taken.reported z c (c.ended ⟨.complete, contested, []⟩) .stepDone
        contested.length).advance m order z).ctx z = some k) : (w.settle m order).ctx z = some k := by
      rw [settled]
      exact Works.settleFor_ctx_of_rests m order z rests 50 _ (Works.turns_ctx_of_rests m order _ _ z hk rests back)
    refine ⟨ff, bl, fun more => ?_, fun last => ?_⟩
    · obtain ⟨k, hk, entered⟩ := Works.advance_ended_entered m order z w.taken c ⟨.complete, contested, []⟩ .stepDone
        contested.length hb more
      have after := stays entered.rests hk
      refine ⟨?_, k, after, entered.step, entered.phase, entered.outcomes⟩
      have alike := (w.taken_alike z).reported c (c.ended ⟨.complete, contested, []⟩) .stepDone contested.length
      rw [after, ← hk, Works.advance_ended_of_more m order z _ c _ _ _ more]
      exact alike.enterStep_ctx m order z _
    · exact stays (Ctx.rests_of_established rfl) (Works.advance_ended_ctx_of_last m order z w.taken c _ _ _ last)

end Sys2Proof.Machine
end

section
/-!
SUPPORT. What the work of the fans leaves alone: every search for a grant, evaluation, stop and start is a chain of small changes,
none of which touches a damper, the statistics, or the configuration, target or class of a fan, and which reach no fan that rests.
-/

namespace Sys2Proof.Machine

/-- Neither energized nor waiting for a permit: no search for a grant and no evaluation touches the fan. -/
def FanState.rests : FanState → Bool
  | .stopped | .waitInterlock | .stopping | .stopFault => true
  | .waitPermit | .starting | .running | .runFault => false

/-- From `x` to `y` fans among `P` have worked: reports, hand-overs, the start queue, the stagger timer, the grant history and
the figures may have changed, and of a channel only a fan's record, its configuration, target and class kept. -/
inductive Plant.Stirs (P : ActId → Prop) : Plant → Plant → Prop
  | refl (x : Plant) : Stirs P x x
  | trans {x y z : Plant} (h : Stirs P x y) (i : Stirs P y z) : Stirs P x z
  | report (x : Plant) (k : ReportKind) (u : Option Subject) (n : Option NewState) (d : Option Detail) :
      Stirs P x (x.report k u n d)
  | handPx (x : Plant) (a : ActId) : Stirs P x (x.handPx a)
  | handTs (x : Plant) (n : TestNote) : Stirs P x (x.handTs n)
  | permit (x : Plant) (queue : List QueueEntry) (stagger : Option Nat) (history : Table (List ActId) 4) :
      Stirs P x { x with queue, stagger, history }
  | refresh (x : Plant) (g : GroupId) : Stirs P x (x.refresh g)
  | fan (x : Plant) (a : ActId) (f r : Fan) (h : x.chans.look a = .fan f) (ha : P a) (hc : r.cfg = f.cfg)
      (ht : r.target = f.target) (hk : r.cls = f.cls) : Stirs P x (x.setChan a (.fan r))

/-- Every fan outside `P` rests. -/
def Plant.RestsOutside (P : ActId → Prop) (x : Plant) : Prop :=
  ∀ a f, x.chans.look a = .fan f → f.state.rests = false → P a

/-- The scaled set of group `g`, as its last evaluation left it, lies in `P`. -/
def Plant.ScaledIn (P : ActId → Prop) (g : GroupId) (x : Plant) : Prop := ∀ a ∈ (x.figs.look g).scaled, P a

section
variable {P : ActId → Prop} {x y : Plant}

theorem Plant.Stirs.foldl {α : Type} {g : Plant → α → Plant} (hg : ∀ x a, Plant.Stirs P x (g x a)) (l : List α) (x : Plant) :
    Plant.Stirs P x (l.foldl g x) := by
  induction l generalizing x with
  | nil => exact .refl x
  | cons a l ih => exact (hg x a).trans (ih _)

/-- The fans' work leaves the demand lists, inputs, statistics, group configuration and the Timebase. -/
theorem Plant.Stirs.keeps (h : Plant.Stirs P x y) : Plant.Keeps x y ∧ y.stats = x.stats := by
  induction h with
  | trans _ _ hy hz => exact ⟨hy.1.trans hz.1, hz.2.trans hy.2⟩
  | _ => exact ⟨⟨rfl, rfl, rfl, rfl, rfl⟩, rfl⟩

/-- A channel stays as it is, or it is a fan among `P` that keeps its configuration, target and class. -/
theorem Plant.Stirs.look (h : Plant.Stirs P x y) (a : ActId) :
    y.chans.look a = x.chans.look a ∨ P a ∧ ∃ f r, x.chans.look a = .fan f ∧ y.chans.look a = .fan r ∧ r.cfg = f.cfg
      ∧ r.target = f.target ∧ r.cls = f.cls := by
  induction h with
  | trans _ _ hy hz =>
    obtain hz | ⟨ha, f, r, hf, hr, hc, ht, hk⟩ := hz
    · rw [hz]; exact hy
    · obtain hy | ⟨-, d, e, hd, he, hc', ht', hk'⟩ := hy
      · exact .inr ⟨ha, f, r, hy ▸ hf, hr, hc, ht, hk⟩
      · obtain rfl : f = e := Channel.fan.inj (hf.symm.trans he)
        exact .inr ⟨ha, d, r, hd, hr, hc.trans hc', ht.trans ht', hk.trans hk'⟩
  | fan x b f r h hb hc ht hk =>
    rw [Plant.setChan_chans, Table.look_put]
    split
    case isTrue e =>
      subst e
      exact .inr ⟨hb, f, r, h, rfl, hc, ht, hk⟩
    case isFalse => exact .inl rfl
  | _ => exact .inl rfl

/-- No damper changes. -/
theorem Plant.Stirs.damper (h : Plant.Stirs P x y) {a : ActId} {d : Damper} (hd : x.chans.look a = .damper d) :
    y.chans.look a = .damper d := by
  obtain e | ⟨-, f, -, hf, -⟩ := h.look a
  · rw [e, hd]
  · rw [hd] at hf; cases hf

/-- A fan keeps its configuration, target and class. -/
theorem Plant.Stirs.fan_look (h : Plant.Stirs P x y) {a : ActId} {f : Fan} (hf : x.chans.look a = .fan f) :
    ∃ r, y.chans.look a = .fan r ∧ r.cfg = f.cfg ∧ r.target = f.target ∧ r.cls = f.cls := by
  obtain e | ⟨-, d, r, hd, hr, hc, ht, hk⟩ := h.look a
  · exact ⟨f, e.trans hf, rfl, rfl, rfl⟩
  · obtain rfl : f = d := Channel.fan.inj (hf.symm.trans hd)
    exact ⟨r, hr, hc, ht, hk⟩

/-- A channel outside `P` stays as it is. -/
theorem Plant.Stirs.look_outside (h : Plant.Stirs P x y) {a : ActId} (ha : ¬ P a) : y.chans.look a = x.chans.look a :=
  (h.look a).resolve_right fun k => ha k.1

theorem Plant.Stirs.restsOutside (h : Plant.Stirs P x y) (hr : x.RestsOutside P) : y.RestsOutside P := by
  intro a f hf ha
  obtain e | ⟨k, -⟩ := h.look a
  · exact hr a f (e ▸ hf) ha
  · exact k

/-- The members of a group's sets are energized (R103). -/
theorem Plant.RestsOutside.of_inSet (hr : x.RestsOutside P) {g : GroupId} {manual : Bool} {a : ActId}
    (h : x.inSet g manual a = true) : P a := by
  unfold Plant.inSet Plant.fan? at h
  cases hf : x.chans.look a with
  | fan f =>
    refine hr a f hf ?_
    simp only [hf, Fan.energized, Bool.and_eq_true] at h
    revert h
    cases f.state <;> simp [FanState.energized, FanState.rests]
  | _ => simp [hf] at h

/-- Figures taken afresh hold energized fans alone. -/
theorem Plant.RestsOutside.refresh_scaledIn (hr : x.RestsOutside P) (g : GroupId) : (x.refresh g).ScaledIn P g := by
  intro a ha
  have mem : a ∈ x.scaledSet g := by
    unfold Plant.refresh Plant.figures at ha
    dsimp only at ha
    rw [Table.look_put_same] at ha
    split at ha <;> exact ha
  exact hr.of_inSet (List.mem_filter.mp mem).2

theorem Plant.Stirs.scaledIn (h : Plant.Stirs P x y) (hr : x.RestsOutside P) {g : GroupId} (hs : x.ScaledIn P g) :
    y.ScaledIn P g := by
  induction h with
  | trans hy _ iy iz => exact iz (hy.restsOutside hr) (iy hr hs)
  | refresh x k =>
    by_cases e : g = k
    · exact e ▸ hr.refresh_scaledIn k
    · intro a ha
      unfold Plant.refresh at ha
      dsimp only at ha
      rw [Table.look_put_other _ _ _ _ e] at ha
      exact hs a ha
  | _ => exact hs

end

/-! ### One fan -/

/-- A change of a fan's record keeps its configuration, target and class. -/
def Fan.AimKept (g : Fan → Fan) : Prop := ∀ f, (g f).cfg = f.cfg ∧ (g f).target = f.target ∧ (g f).cls = f.cls

section
variable {P : ActId → Prop} (x : Plant) (a : ActId)

theorem Plant.fan?_eq_some {f : Fan} : x.fan? a = some f ↔ x.chans.look a = .fan f := by
  unfold Plant.fan?
  cases x.chans.look a <;> simp

theorem Plant.modFan_stirs (ha : P a) (g : Fan → Fan) (hg : Fan.AimKept g := by intro f; exact ⟨rfl, rfl, rfl⟩) :
    Plant.Stirs P x (x.modFan a g) := by
  unfold Plant.modFan
  split
  case h_1 f hf => exact .fan x a f _ hf ha (hg f).1 (hg f).2.1 (hg f).2.2
  case h_2 => exact .refl x

theorem Plant.fanEnter_stirs (ha : P a) (st : FanState) (g : Fan → Fan)
    (hg : Fan.AimKept g := by intro f; exact ⟨rfl, rfl, rfl⟩) : Plant.Stirs P x (x.fanEnter a st g) := by
  have entered := (x.modFan_stirs a ha (fun f => { g f with state := st }) hg).trans (.handPx _ a)
  unfold Plant.fanEnter
  split
  · dsimp only
    split
    · exact entered.trans (.handTs _ _)
    · exact entered
  · exact .refl x

/-- A fan enters a state and reports it. -/
theorem Plant.fanEnter_reportFan_stirs (ha : P a) (st : FanState) (g : Fan → Fan) (c : FanCause)
    (hg : Fan.AimKept g := by intro f; exact ⟨rfl, rfl, rfl⟩) : Plant.Stirs P x ((x.fanEnter a st g).reportFan a st c) :=
  (x.fanEnter_stirs a ha st g hg).trans (.report _ _ _ _ _)

theorem Plant.leaveQueue_stirs : Plant.Stirs P x (x.leaveQueue a) := .permit x _ _ _

theorem Plant.joinQueue_stirs : Plant.Stirs P x (x.joinQueue a) := by
  unfold Plant.joinQueue
  split
  · exact .permit x _ _ _
  · exact .refl x

theorem Plant.joinHistory_stirs : Plant.Stirs P x (x.joinHistory a) := by
  unfold Plant.joinHistory
  split
  · split
    · exact .permit x _ _ _
    · exact .refl x
  · exact .refl x

theorem Plant.leaveHistory_stirs : Plant.Stirs P x (x.leaveHistory a) := by
  unfold Plant.leaveHistory
  split
  · split
    · exact .permit x _ _ _
    · exact .refl x
  · exact .refl x

theorem Plant.selfApplied_stirs (ha : P a) : Plant.Stirs P x (x.selfApplied a) := by
  unfold Plant.selfApplied
  split
  · split
    · exact x.modFan_stirs a ha _
    · split
      · exact x.modFan_stirs a ha _
      · exact .refl x
  · exact .refl x

theorem Plant.becomeRunning_stirs (ha : P a) : Plant.Stirs P x (x.becomeRunning a) :=
  x.fanEnter_reportFan_stirs a ha _ _ _

end

/-! ### Operations that may look for a grant -/

section
variable {P : ActId → Prop} {walk : Plant → Plant} (hw : ∀ x : Plant, x.RestsOutside P → Plant.Stirs P x (walk x))
variable (x : Plant) (a : ActId) (hr : x.RestsOutside P)
include hw hr

theorem Plant.startPath_stirs (ha : P a) : Plant.Stirs P x (x.startPath walk a) := by
  unfold Plant.startPath
  split
  · split
    · have joined := (x.fanEnter_reportFan_stirs a ha .waitPermit id .command).trans (Plant.joinQueue_stirs _ a)
      exact joined.trans (hw _ (joined.restsOutside hr))
    · exact x.fanEnter_reportFan_stirs a ha _ _ _
  · exact .refl x

theorem Plant.completeStop_stirs (ha : P a) : Plant.Stirs P x (x.completeStop walk a) := by
  unfold Plant.completeStop
  split
  · have stopped := x.fanEnter_reportFan_stirs a ha .stopped (fun f => { f with runDownTimer := none, stopCause := none })
      .stopped
    dsimp only
    split
    · exact stopped
    · exact stopped.trans (Plant.startPath_stirs hw _ a (stopped.restsOutside hr) ha)
  · exact .refl x

theorem Plant.shed_stirs (g : GroupId) (ha : P a) : Plant.Stirs P x (x.shed walk g a) := by
  have stopping (y : Plant) (h : Plant.Stirs P x y) :
      Plant.Stirs P x (((y.fanEnter a .stopping fun f =>
        { f.stopRecord x.now (x.proofPresent a) .shed with requeue := true }).leaveHistory a).refresh g) :=
    ((h.trans (y.fanEnter_stirs a ha _ _)).trans (Plant.leaveHistory_stirs ..)).trans (.refresh ..)
  have ordered := stopping _ (.report x .fanShed (some (.actuator a)) (some (.fan .stopping))
    (some (.capacity ((x.figs.look g).available / 1000))))
  unfold Plant.shed
  dsimp only
  split
  · exact ordered
  · exact ordered.trans (Plant.completeStop_stirs hw _ a (ordered.restsOutside hr) ha)

theorem Plant.shedAll_stirs (g : GroupId) (hs : x.ScaledIn P g) : Plant.Stirs P x (x.shedAll walk g) := by
  unfold Plant.shedAll
  generalize (x.history.look g).reverse = l
  induction l generalizing x with
  | nil => exact .refl x
  | cons a l ih =>
    rw [List.foldl_cons]
    dsimp only
    split
    case isTrue h =>
      have shed := Plant.shed_stirs hw x a hr g (hs a (by simpa using h.2))
      exact shed.trans (ih _ (shed.restsOutside hr) (shed.scaledIn hr hs))
    case isFalse => exact ih x hr hs

end

/-! ### The allocation -/

/-- The allocation gives speeds to the fans it is made for, and to no other (R109). -/
theorem allocRounds_fan (n : Nat) (l : List ScaledFan) (a d : Nat) {p : ActId × Nat} (h : p ∈ allocRounds n l a d) :
    ∃ f ∈ l, f.fan = p.1 := by
  induction n generalizing l a d with
  | zero =>
    obtain ⟨f, hf, rfl⟩ := List.mem_map.mp h
    exact ⟨f, hf, rfl⟩
  | succ n ih =>
    unfold allocRounds at h
    dsimp only at h
    split at h
    · obtain ⟨f, hf, rfl⟩ := List.mem_map.mp h
      exact ⟨f, hf, rfl⟩
    · obtain h | h := List.mem_append.mp h
      · obtain ⟨f, hf, rfl⟩ := List.mem_map.mp h
        exact ⟨f, List.mem_of_mem_filter hf, rfl⟩
      · obtain ⟨f, hf, e⟩ := ih _ _ _ h
        exact ⟨f, List.mem_of_mem_filter hf, e⟩

theorem allocate_fan (l : List ScaledFan) (a : Nat) {p : ActId × Nat} (h : p ∈ allocate l a) : ∃ f ∈ l, f.fan = p.1 := by
  unfold allocate at h
  split at h
  · obtain ⟨f, hf, rfl⟩ := List.mem_map.mp h
    exact ⟨f, hf, rfl⟩
  · exact allocRounds_fan _ _ _ _ h

section
variable {P : ActId → Prop} (x : Plant) (hr : x.RestsOutside P)
include hr

theorem Plant.of_mem_scaledFans {g : GroupId} {f : ScaledFan} (h : f ∈ x.scaledFans g) : P f.fan := by
  obtain ⟨a, ha, e⟩ := List.mem_filterMap.mp h
  obtain ⟨r, -, rfl⟩ := Option.map_eq_some_iff.mp e
  exact hr.of_inSet (List.mem_filter.mp ha).2

theorem Plant.handSpeeds_stirs (g : GroupId) : Plant.Stirs P x (x.handSpeeds g) := by
  have given : ∀ p ∈ allocate (x.scaledFans g) (x.figs.look g).available, P p.1 := fun p hp => by
    obtain ⟨f, hf, e⟩ := allocate_fan _ _ hp
    exact e ▸ x.of_mem_scaledFans hr hf
  unfold Plant.handSpeeds
  revert given
  generalize allocate (x.scaledFans g) (x.figs.look g).available = l
  intro given
  clear hr
  induction l generalizing x with
  | nil => exact .refl x
  | cons p l ih =>
    exact (x.modFan_stirs p.1 (given p List.mem_cons_self) _).trans (ih _ fun q hq => given q (List.mem_cons_of_mem _ hq))

end

/-! ### Evaluations, stops and grants -/

section
variable {P : ActId → Prop} {walk : Plant → Plant} (hw : ∀ x : Plant, x.RestsOutside P → Plant.Stirs P x (walk x))
variable (x : Plant) (a : ActId) (hr : x.RestsOutside P)
include hw hr

theorem Plant.evaluate_stirs (g : GroupId) : Plant.Stirs P x (x.evaluate walk g) := by
  have fresh : Plant.Stirs P x (x.refresh g) := .refresh x g
  have shed := fresh.trans (Plant.shedAll_stirs hw _ (fresh.restsOutside hr) g (hr.refresh_scaledIn g))
  have allocated := shed.trans (Plant.handSpeeds_stirs _ (shed.restsOutside hr) g)
  unfold Plant.evaluate
  dsimp only
  split
  · exact fresh
  · split
    · exact allocated
    · exact allocated.trans (hw _ (allocated.restsOutside hr))

theorem Plant.fanTouched_stirs (ha : P a) : Plant.Stirs P x (x.fanTouched walk a) := by
  have applied := x.selfApplied_stirs a ha
  unfold Plant.fanTouched
  dsimp only
  split
  · exact applied.trans (Plant.evaluate_stirs hw _ (applied.restsOutside hr) _)
  · exact applied

theorem Plant.enterStopping_stirs (ha : P a) (broken : Option ActId) : Plant.Stirs P x (x.enterStopping walk a broken) := by
  have stopping (y : Plant) (h : Plant.Stirs P x y) : Plant.Stirs P x ((y.leaveHistory a).fanTouched walk a) := by
    have left := h.trans (y.leaveHistory_stirs a)
    exact left.trans (Plant.fanTouched_stirs hw _ a (left.restsOutside hr) ha)
  have complete (y : Plant) (h : Plant.Stirs P x y) : Plant.Stirs P x (y.completeStop walk a) :=
    h.trans (Plant.completeStop_stirs hw y a (h.restsOutside hr) ha)
  unfold Plant.enterStopping
  dsimp only
  cases broken with
  | some d =>
    have tripped := stopping _ ((x.fanEnter_stirs a ha .stopping (Fan.stopRecord x.now (x.proofPresent a) .interlock)).trans
      (.report _ .interlockTrip (some (.actuator a)) (some (.fan .stopping)) (some (.actuator d))))
    split
    · exact tripped
    · exact complete _ tripped
  | none =>
    have stopped := stopping _ (x.fanEnter_reportFan_stirs a ha .stopping
      (Fan.stopRecord x.now (x.proofPresent a) .command) .command)
    split
    · exact stopped
    · exact complete _ stopped

end

section
variable {P : ActId → Prop} (x : Plant) (a : ActId) (hr : x.RestsOutside P)
include hr

theorem Plant.grant_stirs (ha : P a) : Plant.Stirs P x (x.grant a) := by
  have starting (g : Fan → Fan) (hg : Fan.AimKept g) : Plant.Stirs P x
      ((((({ x with stagger := some (x.now + x.staggerInterval * 1000) } : Plant).leaveQueue a).fanEnter a .starting g).joinHistory
        a).reportFan a .starting .grant) :=
    (((Plant.Stirs.permit x _ _ _).trans (Plant.fanEnter_stirs _ a ha _ g hg)).trans
      (Plant.joinHistory_stirs ..)).trans (.report _ _ _ _ _)
  have granted (g : Fan → Fan) (hg : Fan.AimKept g) :=
    (starting g hg).trans (Plant.fanTouched_stirs (fun y _ => .refl y) _ a ((starting g hg).restsOutside hr) ha)
  have done := granted (fun f =>
    { f with
      run := true, present := f.cfg.minSpeed, proofTimer := some (x.now + f.cfg.proofTime * 1000), requeue := false })
    (by intro f; exact ⟨rfl, rfl, rfl⟩)
  unfold Plant.grant
  dsimp only
  split
  · split
    · exact done.trans (Plant.becomeRunning_stirs _ a ha)
    · exact done
  · exact done

/-- A search for a grant reaches the fans in WAIT_PERMIT and the energized ones (R99). -/
theorem Plant.walk_stirs : Plant.Stirs P x x.walk := by
  unfold Plant.walk
  split
  · exact .refl x
  · split
    case h_1 e he =>
      refine x.grant_stirs _ hr ?_
      have found := List.find?_some he
      have waits : x.waitsForPermit e.fan = true := (Bool.and_eq_true_iff.mp found).1
      unfold Plant.waitsForPermit at waits
      split at waits
      case h_1 f hf =>
        refine hr _ f (x.fan?_eq_some _ |>.mp hf) ?_
        have waiting : f.state = .waitPermit := by simpa using (Bool.and_eq_true_iff.mp waits).1
        rw [waiting]
        rfl
      case h_2 => cases waits
    case h_2 => exact .refl x

theorem Plant.pathMade_stirs (ha : P a) : Plant.Stirs P x (x.pathMade a) := by
  unfold Plant.pathMade
  split
  · split
    · have joined := (x.fanEnter_reportFan_stirs a ha .waitPermit id .interlockMade).trans (Plant.joinQueue_stirs _ a)
      exact joined.trans (Plant.walk_stirs _ (joined.restsOutside hr))
    · exact .refl x
  · exact .refl x

theorem Plant.pathBroken_stirs (ha : P a) (d : ActId) : Plant.Stirs P x (x.pathBroken a d) := by
  unfold Plant.pathBroken
  split
  · split
    · exact Plant.enterStopping_stirs Plant.walk_stirs x a hr ha _
    · split
      · exact (x.leaveQueue_stirs a).trans (Plant.fanEnter_reportFan_stirs _ a ha _ _ _)
      · exact .refl x
  · exact .refl x

end

/-! ### Every fan -/

/-- From `x` to `y` any fans may have worked. -/
abbrev Plant.FansWork (x y : Plant) : Prop := Plant.Stirs (fun _ => True) x y

theorem Plant.restsOutside_all (x : Plant) : x.RestsOutside fun _ => True := fun _ _ _ _ => trivial

section
variable (x : Plant) (a : ActId)

theorem Plant.handOpenness_fansWork (was is : DamperState) (cfg : DamperCfg) : Plant.FansWork x (x.handOpenness a was is cfg) := by
  have handed : Plant.FansWork x (if is = .atOpen then (x.fansThrough a).foldl Plant.pathMade x
      else (x.fansThrough a).foldl (fun y f => y.pathBroken f a) x) := by
    split
    · exact Plant.Stirs.foldl (fun y f => y.pathMade_stirs f y.restsOutside_all trivial) _ _
    · exact Plant.Stirs.foldl (fun y f => y.pathBroken_stirs f y.restsOutside_all trivial a) _ _
  unfold Plant.handOpenness
  split
  · exact .refl x
  · dsimp only
    split
    · exact handed.trans (Plant.evaluate_stirs Plant.walk_stirs _ (Plant.restsOutside_all _) _)
    · exact handed

/-- After a damper's record is replaced, only fans have worked (R79). -/
theorem Plant.damperEnter_fansWork (was : DamperState) (d : Damper) (k : ReportKind) (e : Option Detail) :
    Plant.FansWork (x.setChan a (.damper d)) (x.damperEnter a was d k e) := by
  have entered : Plant.FansWork (x.setChan a (.damper d))
      (((x.setChan a (.damper d)).report k (some (.actuator a)) (some (.damper d.state)) e).handPx a) :=
    (Plant.Stirs.report _ _ _ _ _).trans (.handPx _ a)
  unfold Plant.damperEnter
  dsimp only
  split
  · exact (entered.trans (.handTs _ _)).trans (Plant.handOpenness_fansWork ..)
  · exact entered.trans (Plant.handOpenness_fansWork ..)

end

end Sys2Proof.Machine
end

section
/-!
SUPPORT. How a changed demand list reaches its channel (R48, R49): the announced target, and what a damper takes of it: O37.
-/

namespace Sys2Proof.Machine

/-! ### The hand-off of a changed list -/

section
variable (x : Plant) (a : ActId) (l : List Demand) (old new : Resolved)

/-- The channel side as a channel takes a new resolved demand: the list changed, and a changed target reported (R49). -/
def Plant.announced : Plant :=
  if old.pos = new.pos then { x with demands := x.demands.put a l }
  else ({ x with demands := x.demands.put a l } : Plant).report .actuatorTarget (some (.actuator a)) (some (.target new.pos))
    (some (.cls new.cls new.zone))

@[simp] theorem Plant.announced_chans : (x.announced a l old new).chans = x.chans := by unfold Plant.announced; split <;> rfl
@[simp] theorem Plant.announced_inputs : (x.announced a l old new).inputs = x.inputs := by unfold Plant.announced; split <;> rfl
@[simp] theorem Plant.announced_stats : (x.announced a l old new).stats = x.stats := by unfold Plant.announced; split <;> rfl
@[simp] theorem Plant.announced_queue : (x.announced a l old new).queue = x.queue := by unfold Plant.announced; split <;> rfl
@[simp] theorem Plant.announced_stagger : (x.announced a l old new).stagger = x.stagger := by unfold Plant.announced; split <;> rfl
@[simp] theorem Plant.announced_groups : (x.announced a l old new).groups = x.groups := by unfold Plant.announced; split <;> rfl
@[simp] theorem Plant.announced_now : (x.announced a l old new).now = x.now := by unfold Plant.announced; split <;> rfl

@[simp] theorem Plant.announced_demands : (x.announced a l old new).demands = x.demands.put a l := by
  unfold Plant.announced; split <;> rfl

/-- The demand that a list resolves to at a channel with rest position `rest` (R48). -/
theorem resolve_eq {c : Channel} {rest : Position} (hc : c.restPos = some rest) (h : l = [] → new = ⟨rest, .rest, none⟩)
    (h' : ∀ e r, l = e :: r → new = ⟨e.pos, e.cls.resolved, some e.orig⟩) : resolve c l = some new := by
  unfold resolve
  cases l with
  | nil => rw [hc, h rfl]
  | cons e r => rw [hc, h' e r rfl]

variable {old new}

/-- A list that resolves as before changes nothing else (R49). -/
theorem Plant.setDemands_of_same (ho : x.resolved a = some old) (hn : resolve (x.chans.look a) l = some old) :
    x.setDemands a l = { x with demands := x.demands.put a l } := by
  have hn : ({ x with demands := x.demands.put a l } : Plant).resolved a = some old := by simpa [Plant.resolved] using hn
  unfold Plant.setDemands
  simp only [ho, hn, if_true]

/-- A new resolved demand is announced, taken by the channel and handed to the Plan Executor (R49, R50). -/
theorem Plant.setDemands_of_change (ho : x.resolved a = some old) (hn : resolve (x.chans.look a) l = some new) (h : old ≠ new) :
    x.setDemands a l = ((x.announced a l old new).channelTakes a new).handPx a := by
  have hn : ({ x with demands := x.demands.put a l } : Plant).resolved a = some new := by simpa [Plant.resolved] using hn
  unfold Plant.setDemands
  simp only [ho, hn, if_neg h]
  rfl

end

/-! ### Dampers -/

/-- The record of a damper after it has taken the target `p` at switch condition `cond` and time `now` (R65, R69). -/
def Damper.aimed (d : Damper) (p : DamperPos) (cond : SwitchCond) (now : Nat) : Damper :=
  let e := { d with target := p, drive := d.cfg.driveFor p }
  if p = d.target then d
  else
    match d.state with
    | .switchFault => e
    | .atOpen | .atClosed => e.travelling now .command
    | .opening | .closing | .travelFault => if cond = p.endCond then e.arrived else e.travelling now .command

theorem Damper.aimed_target (d : Damper) (p : DamperPos) (cond : SwitchCond) (now : Nat) : (d.aimed p cond now).target = p := by
  unfold Damper.aimed
  dsimp only
  split
  case isTrue h => exact h.symm
  case isFalse =>
    split
    · rfl
    · rfl
    · rfl
    iterate 3 split <;> rfl

theorem Plant.damper?_eq_some (x : Plant) (a : ActId) {d : Damper} : x.damper? a = some d ↔ x.chans.look a = .damper d := by
  unfold Plant.damper?
  cases x.chans.look a <;> simp

/-- A damper takes its target by its state, and then only fans work (R69, R79). -/
theorem Plant.damperTarget_fansWork (x : Plant) (a : ActId) (p : DamperPos) {d : Damper} (h : x.chans.look a = .damper d) :
    Plant.FansWork (x.setChan a (.damper (d.aimed p (x.condOf a) x.now))) (x.damperTarget a p) := by
  unfold Plant.damperTarget Damper.aimed
  rw [(x.damper?_eq_some a).mpr h]
  dsimp only
  split
  case isTrue =>
    rw [← h, show x.setChan a (x.chans.look a) = x from congrArg (fun t => { x with chans := t }) (Table.put_look ..)]
    exact .refl x
  case isFalse =>
    cases d.state with
    | switchFault => exact .refl _
    | atOpen | atClosed => exact x.damperEnter_fansWork ..
    | opening | closing | travelFault =>
      dsimp only
      split
      · exact x.damperEnter_fansWork ..
      · exact x.damperEnter_fansWork ..

/-- Settles O37: the record that the damper takes, and the fans' work, which reaches no damper. -/
theorem aDamperFollowsItsTarget : Obligations.ADamperFollowsItsTarget := by
  intro x a d l old new p hd ho hpos hnil hcons hp
  dsimp only
  have hn : resolve (x.chans.look a) l = some new := resolve_eq l new (by rw [hd]; rfl) hnil hcons
  refine ⟨by simp [Plant.setDemands_look], fun b hb => by simp [Plant.setDemands_look, hb], ?_⟩
  by_cases same : old = new
  · obtain rfl : p = d.target := by
      rw [← same, hpos] at hp
      exact (Position.damper.inj hp).symm
    rw [x.setDemands_of_same a l ho (same ▸ hn)]
    exact ⟨rfl, rfl, rfl, fun _ _ _ h => h, fun _ => hd, by simp, by simp, by simp, by simp, by simp⟩
  · have change := x.setDemands_of_change a l ho hn same
    rw [Plant.channelTakes, hp] at change
    dsimp only at change
    have taken := (x.announced a l old new).damperTarget_fansWork a p (d := d) (by simpa using hd)
    have cond : (x.announced a l old new).condOf a
        = switchCond (x.inputs.look a).first.debounced (x.inputs.look a).second.debounced := by
      simp [Plant.condOf]
    rw [cond, Plant.announced_now] at taken
    clear cond
    generalize switchCond _ _ = cond at *
    have record : (x.setDemands a l).chans.look a = .damper (d.aimed p cond x.now) := by
      rw [change]
      exact taken.damper (Table.look_put_same ..)
    have runs := (x.announced a l old new).damperTarget_runs a p
    rw [change] at record ⊢
    obtain ⟨keeps, stats⟩ := taken.keeps
    refine ⟨stats.trans (by simp), keeps.inputs.trans (by simp), keeps.now.trans (by simp), fun b c hb hc => ?_,
      ?_, ?_, ?_, ?_, ?_, ?_⟩
    · refine taken.damper ?_
      rw [Plant.setChan_chans, Table.look_put_other _ _ _ _ hb, Plant.announced_chans, hc]
    · rintro rfl
      rw [record]; simp [Damper.aimed]
    · rintro hne (hs | hs) <;> rw [record] <;> simp [Damper.aimed, hne, hs, Damper.travelling, DamperCfg.driveFor]
    · rintro hne (hs | hs | hs) hend <;> rw [record] <;>
        simp [Damper.aimed, hne, hs, hend, Damper.arrived, DamperCfg.driveFor]
    · rintro hne (hs | hs | hs) hend <;> rw [record] <;>
        simp [Damper.aimed, hne, hs, hend, Damper.travelling, DamperCfg.driveFor]
    · intro hne hs
      rw [record]; simp [Damper.aimed, hne, hs, DamperCfg.driveFor]
    · intro hne room
      have report : x.announced a l old new = ({ x with demands := x.demands.put a l } : Plant).report .actuatorTarget
          (some (.actuator a)) (some (.target (.damper p))) (some (.cls new.cls new.zone)) := by
        rw [Plant.announced, hp, if_neg (by rw [hpos]; simpa using Ne.symm hne)]
      rw [report] at runs ⊢
      obtain ⟨more, e⟩ := runs.joins.1 room
      exact ⟨new.zone, more, e⟩

end Sys2Proof.Machine
end

section
/-!
SUPPORT. What a fan takes of a changed demand list, by its state: O38.
-/

namespace Sys2Proof.Machine

/-- The record of a fan that has taken the target `t` of class `c` (R86, R96). -/
def Fan.aimed (f : Fan) (t : FanTarget) (c : ResolvedClass) : Fan :=
  { f with target := t, cls := c, requeue := f.requeue && t != .off }

/-- A fan that takes its own target and class, holding no requeue note with target OFF, stays as it is. -/
theorem Fan.aimed_self (f : Fan) (h : f.target = .off → f.requeue = false) : f.aimed f.target f.cls = f := by
  have note : (f.requeue && f.target != .off) = f.requeue := by
    by_cases ht : f.target = .off
    · simp [h ht]
    · simp [ht]
  unfold Fan.aimed
  rw [note]

/-! ### The operations on one fan, where its channel is known -/

section
variable {x : Plant} {a : ActId} {f : Fan} (h : x.chans.look a = .fan f)
include h

theorem Plant.modFan_of_fan (g : Fan → Fan) : x.modFan a g = x.setChan a (.fan (g f)) := by
  unfold Plant.modFan
  rw [h]

theorem Plant.fanEnter_of_fan (st : FanState) (g : Fan → Fan) :
    (x.fanEnter a st g).chans = x.chans.put a (.fan { g f with state := st }) ∧ (x.fanEnter a st g).queue = x.queue
      ∧ (x.fanEnter a st g).stagger = x.stagger ∧ (x.fanEnter a st g).groups = x.groups
      ∧ (x.fanEnter a st g).now = x.now := by
  unfold Plant.fanEnter
  rw [(x.fan?_eq_some a).mpr h]
  dsimp only
  rw [Plant.modFan_of_fan h]
  split <;> exact ⟨rfl, rfl, rfl, rfl, rfl⟩

theorem Plant.fanEnter_look (st : FanState) (g : Fan → Fan) :
    (x.fanEnter a st g).chans.look a = .fan { g f with state := st } := by
  rw [(Plant.fanEnter_of_fan h st g).1, Table.look_put_same]

/-- The record of a fan is no matter of its path (R87). -/
theorem Plant.pathOpen_setChan_fan (r : Fan) : (x.setChan a (.fan r)).pathOpen = x.pathOpen := by
  have damper (b : ActId) : (x.setChan a (.fan r)).damper? b = x.damper? b := by
    unfold Plant.damper?
    by_cases e : b = a
    · rw [e, h, Plant.setChan_chans, Table.look_put_same]
    · rw [Plant.setChan_chans, Table.look_put_other _ _ _ _ e]
  funext q
  simp only [Plant.pathOpen, damper]

theorem Plant.startPath_of_broken (walk : Plant → Plant) (hp : x.pathOpen f = false) :
    (x.startPath walk a).chans.look a = .fan { f with state := .waitInterlock } ∧ (x.startPath walk a).queue = x.queue := by
  unfold Plant.startPath
  rw [(x.fan?_eq_some a).mpr h]
  simp only [hp, Bool.false_eq_true, if_false]
  exact ⟨Plant.fanEnter_look h _ _, (Plant.fanEnter_of_fan h _ _).2.1⟩

/-- A fan whose path is open joins the tail of the start queue; with the stagger timer running it stands there (R86, R99). -/
theorem Plant.startPath_of_open (hp : x.pathOpen f = true) (hs : x.stagger.isSome = true) :
    (x.startPath Plant.walk a).chans.look a = .fan { f with state := .waitPermit }
      ∧ (x.startPath Plant.walk a).queue
        = x.queue.filter (fun q => q.fan != a) ++ [⟨a, x.now, if f.requeue then .shed else .new⟩] := by
  obtain ⟨-, queue, stagger, -, now⟩ := Plant.fanEnter_of_fan h .waitPermit id
  have entered := Plant.fanEnter_look h .waitPermit id
  have found : ((x.fanEnter a .waitPermit id).reportFan a .waitPermit .command).fan? a = some { f with state := .waitPermit } :=
    (Plant.fan?_eq_some _ a).mpr entered
  unfold Plant.startPath
  rw [(x.fan?_eq_some a).mpr h]
  simp only [hp, if_true]
  unfold Plant.joinQueue
  rw [found]
  unfold Plant.walk
  rw [if_pos (stagger ▸ hs)]
  exact ⟨entered, by rw [← queue, ← now]; rfl⟩

/-- A fan that rests is reached by no work of the other fans. -/
theorem Plant.restsOutside_of_rests (hf : f.state.rests = true) : x.RestsOutside (· ≠ a) := by
  rintro b r hb hr rfl
  rw [h] at hb
  obtain rfl := Channel.fan.inj hb
  rw [hf] at hr
  cases hr

/-- With its run output going off a fan stands at applied speed 0, and the evaluation leaves it there (R92, R95, R105). -/
theorem Plant.fanTouched_of_rests (hf : f.state.rests = true) (ha : f.applied = 0) :
    (x.fanTouched Plant.walk a).chans.look a = .fan f := by
  have off : f.energized = false := by
    unfold Fan.energized
    revert hf
    cases f.state <;> simp [FanState.energized, FanState.rests]
  have same : ({ f with applied := 0 } : Fan) = f := by rw [← ha]
  have self : (x.selfApplied a).chans.look a = .fan f := by
    unfold Plant.selfApplied
    rw [(x.fan?_eq_some a).mpr h]
    simp only [off, Bool.not_false, if_true]
    rw [Plant.modFan_of_fan h, same]
    exact Table.look_put_same ..
  unfold Plant.fanTouched
  dsimp only
  split
  · have evaluated := Plant.evaluate_stirs (P := (· ≠ a)) (fun y hy => y.walk_stirs hy) (x.selfApplied a)
      (Plant.restsOutside_of_rests self hf)
    exact (evaluated _).look_outside (by simp) |>.trans self
  · exact self

/-- An energized fan outside the check runs at its demanded speed (R95). -/
theorem Plant.fanTouched_of_unchecked (hf : f.energized = true)
    (free : ∀ k, f.cfg.group = some k → (x.groups.look k).velocity = 0) :
    (x.fanTouched Plant.walk a).chans.look a = .fan { f with applied := f.demanded } := by
  have unchecked (k : GroupId) (hk : f.cfg.group = some k) : x.checked k = false := by
    simp [Plant.checked, GroupCfg.checked, free k hk]
  have none : f.cfg.group.any x.checked = false := by
    cases hg : f.cfg.group with
    | none => rfl
    | some k => simpa using unchecked k hg
  have self : x.selfApplied a = x.setChan a (.fan { f with applied := f.demanded }) := by
    unfold Plant.selfApplied
    rw [(x.fan?_eq_some a).mpr h]
    simp [hf, none, Plant.modFan_of_fan h]
  have found : (x.setChan a (.fan { f with applied := f.demanded })).fan? a = some { f with applied := f.demanded } :=
    (Plant.fan?_eq_some _ a).mpr (Table.look_put_same ..)
  unfold Plant.fanTouched
  rw [self]
  dsimp only
  rw [found, Option.bind_some]
  dsimp only
  split
  case h_1 k hk =>
    have : ((x.setChan a (.fan { f with applied := f.demanded })).refresh k).checked k = false := unchecked k hk
    unfold Plant.evaluate
    simp only [this, Bool.not_false, if_true]
    exact Table.look_put_same ..
  case h_2 => exact Table.look_put_same ..

/-- A stop that ends with target OFF leaves the fan STOPPED (R92). -/
theorem Plant.completeStop_of_off (walk : Plant → Plant) (ht : f.target = .off) :
    (x.completeStop walk a).chans.look a = .fan { f with state := .stopped, runDownTimer := none, stopCause := none } := by
  unfold Plant.completeStop
  rw [(x.fan?_eq_some a).mpr h]
  dsimp only
  rw [if_pos ht]
  exact Plant.fanEnter_look h _ _

/-- A stop on command (R92): STOPPING while proof is present, and with a target of OFF STOPPED at once without it. -/
theorem Plant.enterStopping_of_off (ht : f.target = .off) :
    (x.enterStopping Plant.walk a none).chans.look a = .fan
      (if x.proofPresent a then { f.stopRecord x.now true .command with state := .stopping }
        else { f.stopRecord x.now false .command with state := .stopped, stopCause := none }) := by
  have stopped (proof : Bool) : ((((x.fanEnter a .stopping (Fan.stopRecord x.now proof .command)).reportFan a .stopping
      .command).leaveHistory a).fanTouched Plant.walk a).chans.look a
        = .fan { f.stopRecord x.now proof .command with state := .stopping } := by
    refine Plant.fanTouched_of_rests ?_ rfl rfl
    rw [((Plant.leaveHistory_stirs (P := fun _ => False) _ a).look_outside (a := a) id)]
    exact Plant.fanEnter_look h _ _
  unfold Plant.enterStopping
  dsimp only
  cases x.proofPresent a with
  | true => exact stopped true
  | false => exact Plant.completeStop_of_off (stopped false) _ ht

end

/-! ### The taking of a target -/

section
variable {x : Plant} {a : ActId} {f : Fan} (h : x.chans.look a = .fan f) (t : FanTarget) (c : ResolvedClass)
include h

theorem Plant.fanTarget_of_stopped (hs : f.state = .stopped) : x.fanTarget a t c =
    if f.target = .off ∧ t ≠ .off then (x.setChan a (.fan (f.aimed t c))).startPath Plant.walk a
    else x.setChan a (.fan (f.aimed t c)) := by
  simp only [Plant.fanTarget, (x.fan?_eq_some a).mpr h, Plant.modFan_of_fan h, hs, Fan.aimed]

theorem Plant.fanTarget_of_waitInterlock (hs : f.state = .waitInterlock) : x.fanTarget a t c =
    if t = .off then ((x.setChan a (.fan (f.aimed t c))).fanEnter a .stopped id).reportFan a .stopped .command
    else x.setChan a (.fan (f.aimed t c)) := by
  simp only [Plant.fanTarget, (x.fan?_eq_some a).mpr h, Plant.modFan_of_fan h, hs, Fan.aimed]

theorem Plant.fanTarget_of_waitPermit (hs : f.state = .waitPermit) : x.fanTarget a t c =
    if t = .off then
      (((x.setChan a (.fan (f.aimed t c))).leaveQueue a).fanEnter a .stopped id).reportFan a .stopped .command
    else if c ≠ f.cls then (x.setChan a (.fan (f.aimed t c))).walk
    else x.setChan a (.fan (f.aimed t c)) := by
  simp only [Plant.fanTarget, (x.fan?_eq_some a).mpr h, Plant.modFan_of_fan h, hs, Fan.aimed]

theorem Plant.fanTarget_of_energized (hs : f.state = .starting ∨ f.state = .running ∨ f.state = .runFault) :
    x.fanTarget a t c =
      if t = .off then (x.setChan a (.fan (f.aimed t c))).enterStopping Plant.walk a none
      else if t ≠ f.target ∨ (c = .manual) ≠ (f.cls = .manual) then
        (x.setChan a (.fan (f.aimed t c))).fanTouched Plant.walk a
      else x.setChan a (.fan (f.aimed t c)) := by
  obtain hs | hs | hs := hs <;>
    simp only [Plant.fanTarget, (x.fan?_eq_some a).mpr h, Plant.modFan_of_fan h, hs, Fan.aimed]

theorem Plant.fanTarget_of_stopping (hs : f.state = .stopping ∨ f.state = .stopFault) :
    x.fanTarget a t c = x.setChan a (.fan (f.aimed t c)) := by
  obtain hs | hs := hs <;>
    simp only [Plant.fanTarget, (x.fan?_eq_some a).mpr h, Plant.modFan_of_fan h, hs, Fan.aimed]

/-- Once a fan's record has taken target and class, fans work and keep them (R86). -/
theorem Plant.fanTarget_fansWork : Plant.FansWork (x.setChan a (.fan (f.aimed t c))) (x.fanTarget a t c) := by
  have free (y : Plant) : y.RestsOutside fun _ => True := y.restsOutside_all
  have energized (hs : f.state = .starting ∨ f.state = .running ∨ f.state = .runFault) :
      Plant.FansWork (x.setChan a (.fan (f.aimed t c))) (x.fanTarget a t c) := by
    rw [Plant.fanTarget_of_energized h t c hs]
    split
    · exact Plant.enterStopping_stirs (fun y hy => y.walk_stirs hy) _ a (free _) trivial _
    · split
      · exact Plant.fanTouched_stirs (fun y hy => y.walk_stirs hy) _ a (free _) trivial
      · exact .refl _
  cases hs : f.state with
  | stopped =>
    rw [Plant.fanTarget_of_stopped h t c hs]
    split
    · exact Plant.startPath_stirs (fun y hy => y.walk_stirs hy) _ a (free _) trivial
    · exact .refl _
  | waitInterlock =>
    rw [Plant.fanTarget_of_waitInterlock h t c hs]
    split
    · exact Plant.fanEnter_reportFan_stirs _ a trivial _ _ _
    · exact .refl _
  | waitPermit =>
    rw [Plant.fanTarget_of_waitPermit h t c hs]
    split
    · exact (Plant.leaveQueue_stirs _ a).trans (Plant.fanEnter_reportFan_stirs _ a trivial _ _ _)
    · split
      · exact Plant.walk_stirs _ (free _)
      · exact .refl _
  | starting => exact energized (.inl hs)
  | running => exact energized (.inr (.inl hs))
  | runFault => exact energized (.inr (.inr hs))
  | stopping =>
    rw [Plant.fanTarget_of_stopping h t c (.inl hs)]
    exact .refl _
  | stopFault =>
    rw [Plant.fanTarget_of_stopping h t c (.inr hs)]
    exact .refl _

end

/-- A list that resolves as before leaves the fan as it is, and a new resolved demand is taken by the fan's state. -/
theorem Plant.setDemands_of_fan {x : Plant} {a : ActId} {l : List Demand} {old new : Resolved} {t : FanTarget}
    (ho : x.resolved a = some old) (hn : resolve (x.chans.look a) l = some new)
    (ht : new.pos = .fan t) :
    old = new ∧ (x.setDemands a l).chans = x.chans ∧ (x.setDemands a l).queue = x.queue
      ∨ old ≠ new ∧ (x.setDemands a l).chans = ((x.announced a l old new).fanTarget a t new.cls).chans
        ∧ (x.setDemands a l).queue = ((x.announced a l old new).fanTarget a t new.cls).queue := by
  by_cases same : old = new
  · rw [x.setDemands_of_same a l ho (same ▸ hn)]
    exact .inl ⟨same, rfl, rfl⟩
  · rw [x.setDemands_of_change a l ho hn same, Plant.channelTakes, ht]
    exact .inr ⟨same, rfl, rfl⟩

/-- Settles O38: by the state of the fan. -/
theorem aFanFollowsItsTarget : Obligations.AFanFollowsItsTarget := by
  intro x a f l old new t hf ho hpos hcls hnil hcons ht hoff
  dsimp only
  have hn : resolve (x.chans.look a) l = some new := resolve_eq l new (by rw [hf]; rfl) hnil hcons
  obtain ⟨same, chans, queue⟩ | ⟨-, chans, queue⟩ := Plant.setDemands_of_fan ho hn ht
  · obtain rfl : t = f.target := by
      rw [← same, hpos] at ht
      exact (Position.fan.inj ht).symm
    have self : f.aimed f.target new.cls = f := by
      rw [← same, hcls]
      exact f.aimed_self fun e => (hoff e).1
    have look : (x.setDemands a l).chans.look a = .fan (f.aimed f.target new.cls) := by rw [chans, hf, self]
    have on {s : FanState} (hs : f.state = s) (h : s ≠ .stopped ∧ s ≠ .stopping ∧ s ≠ .stopFault) : f.target ≠ .off := by
      intro e
      obtain ⟨-, k | k | k⟩ := hoff e <;> rw [hs] at k
      · exact h.1 k
      · exact h.2.1 k
      · exact h.2.2 k
    have crosses : ¬ (new.cls = .manual) ≠ (f.cls = .manual) := by rw [← same, hcls]; simp
    have energized (hs : f.state = .starting ∨ f.state = .running ∨ f.state = .runFault) : f.target ≠ .off := by
      obtain k | k | k := hs <;> exact on k (by simp)
    refine ⟨⟨_, look, rfl, rfl, rfl⟩, fun _ e h => absurd e h, fun _ e h => absurd e h, fun hs => ?_,
      fun hs e => absurd e (on hs (by simp)), fun _ _ _ => ⟨look, queue⟩, fun hs e => absurd e (energized hs),
      fun hs e => absurd e (energized hs), fun _ _ _ _ => look, fun _ _ h => ?_, fun _ => look⟩
    · rw [if_neg (on hs (by simp)), ← hs]
      exact look
    · exact absurd h (by simpa using crosses)
  · have hz : (x.announced a l old new).chans.look a = .fan f := by simpa using hf
    have hy : ((x.announced a l old new).setChan a (.fan (f.aimed t new.cls))).chans.look a = .fan (f.aimed t new.cls) :=
      Table.look_put_same ..
    have path : ((x.announced a l old new).setChan a (.fan (f.aimed t new.cls))).pathOpen (f.aimed t new.cls)
        = x.pathOpen f := by
      rw [Plant.pathOpen_setChan_fan hz]
      simp [Plant.pathOpen, Plant.damper?, Fan.aimed]
    rw [chans, queue]
    refine ⟨?_, ?_, ?_, ?_, ?_, ?_, ?_, ?_, ?_, ?_, ?_⟩
    · obtain ⟨r, hr, hcfg, htarget, hcls⟩ := (Plant.fanTarget_fansWork hz t new.cls).fan_look hy
      exact ⟨r, hr, htarget, hcls, hcfg⟩
    · intro hs hft hne hp
      rw [Plant.fanTarget_of_stopped hz t _ hs, if_pos ⟨hft, hne⟩]
      obtain ⟨record, queue⟩ := Plant.startPath_of_broken hy Plant.walk (path.trans hp)
      exact ⟨record, queue.trans (by simp)⟩
    · intro hs hft hne hp stagger
      rw [Plant.fanTarget_of_stopped hz t _ hs, if_pos ⟨hft, hne⟩]
      obtain ⟨record, queue⟩ := Plant.startPath_of_open hy (path.trans hp) (by simpa using stagger)
      refine ⟨record, queue.trans ?_⟩
      simp [Fan.aimed, hne]
    · intro hs
      rw [Plant.fanTarget_of_waitInterlock hz t _ hs]
      split
      · exact Plant.fanEnter_look hy _ _
      · rw [← hs]
        exact hy
    · intro hs hto
      rw [Plant.fanTarget_of_waitPermit hz t _ hs, if_pos hto]
      have left : (((x.announced a l old new).setChan a (.fan (f.aimed t new.cls))).leaveQueue a).chans.look a
          = .fan (f.aimed t new.cls) := hy
      obtain ⟨-, queue, -⟩ := Plant.fanEnter_of_fan left .stopped id
      exact ⟨Plant.fanEnter_look left _ _, queue.trans (by simp [Plant.leaveQueue])⟩
    · intro hs hne same
      rw [Plant.fanTarget_of_waitPermit hz t _ hs, if_neg hne, if_neg (by simpa using same)]
      exact ⟨hy, by simp⟩
    · intro hs hto proof
      rw [Plant.fanTarget_of_energized hz t _ hs, if_pos hto, Plant.enterStopping_of_off hy hto, if_pos (by
        simpa [Plant.proofPresent] using proof)]
      simp [Fan.stopRecord, Fan.aimed]
    · intro hs hto proof
      rw [Plant.fanTarget_of_energized hz t _ hs, if_pos hto, Plant.enterStopping_of_off hy hto, if_neg (by
        simpa [Plant.proofPresent] using proof)]
      simp [Fan.stopRecord, Fan.aimed]
    · intro hs hne hto crosses
      rw [Plant.fanTarget_of_energized hz t _ hs, if_neg hne, if_neg (not_or.mpr ⟨not_not.mpr hto, crosses⟩)]
      exact hy
    · intro hs hne change free
      rw [Plant.fanTarget_of_energized hz t _ hs, if_neg hne, if_pos change]
      refine Plant.fanTouched_of_unchecked hy ?_ (by simpa [Fan.aimed] using free)
      obtain hs | hs | hs := hs <;> simp [Fan.energized, Fan.aimed, hs, FanState.energized]
    · intro hs
      rw [Plant.fanTarget_of_stopping hz t _ hs]
      exact hy

end Sys2Proof.Machine
end

section
/-!
SUPPORT. SET OVERRIDE and SET NORMAL (R54 to R59): the checks of their settings, and the place of their entries: O36.
-/

namespace Sys2Proof.Machine

/-! ### The place of an entry -/

section
variable (order : List ZoneId) (d : Demand)

/-- An originator with one entry in a list has the new one in its place (R56, R59). -/
theorem placeDemand_of_split {front back : List Demand} {e : Demand} (he : e.orig = d.orig)
    (hf : ∀ q ∈ front, q.orig ≠ d.orig) (hb : ∀ q ∈ back, q.orig ≠ d.orig) :
    placeDemand order d (front ++ e :: back) = front ++ d :: back := by
  have kept (l : List Demand) (h : ∀ q ∈ l, q.orig ≠ d.orig) : (l.map fun q => if q.orig = d.orig then d else q) = l :=
    (List.map_congr_left fun q hq => if_neg (h q hq)).trans (List.map_id' l)
  rw [placeDemand_of_exists order d _ ⟨e, by simp, he⟩, List.map_append, List.map_cons, kept _ hf, kept _ hb, if_pos he]

theorem placeDemand_of_new {l : List Demand} (h : ∀ q ∈ l, q.orig ≠ d.orig) :
    placeDemand order d l = insertByKey (demandKey order) d l :=
  if_neg (by simpa using h)

/-- A member whose key is below every other goes to the front. -/
theorem insertByKey_eq_cons {α : Type} (key : α → Nat) {x : α} {l : List α} (h : ∀ y ∈ l, key x < key y) :
    insertByKey key x l = x :: l := by
  cases l with
  | nil => rfl
  | cons y ys => rw [insertByKey, if_pos (h y List.mem_cons_self)]

/-- A MANUAL entry stands ahead of every entry of another class (R47). -/
theorem demandKey_pos {e : Demand} (h : e.cls ≠ .manual) : 0 < demandKey order e := by
  unfold demandKey
  split
  case h_1 k => exact absurd k h
  all_goals omega

/-- With an empty fire order every entry stands ahead of a NORMAL one or beside it (R47). -/
theorem demandKey_nil_le (e : Demand) : demandKey [] e ≤ 1001 := by
  unfold demandKey
  split <;> simp

/-- A MANUAL entry of FF stands at the head or in the place of the one there (R56). -/
theorem placeDemand_manual {p : Position} {old rest : List Demand} (hr : ∀ e ∈ rest, e.orig ≠ .ff)
    (h : (∃ e : Demand, e.orig = .ff ∧ old = e :: rest) ∨ (old = rest ∧ ∀ e ∈ rest, e.cls ≠ .manual)) :
    placeDemand order ⟨.manual, .ff, p⟩ old = ⟨.manual, .ff, p⟩ :: rest := by
  obtain ⟨e, he, rfl⟩ | ⟨rfl, hm⟩ := h
  · exact placeDemand_of_split order ⟨.manual, .ff, p⟩ (front := []) he (by simp) hr
  · rw [placeDemand_of_new order _ hr]
    exact insertByKey_eq_cons _ fun e he => demandKey_pos order (hm e he)

/-- Outside an incident a NORMAL entry of BL stands at the tail or in the place of the one there (R59). -/
theorem placeDemand_normal {p : Position} {old front : List Demand} (hf : ∀ e ∈ front, e.orig ≠ .bl)
    (h : old = front ∨ ∃ e : Demand, e.orig = .bl ∧ old = front ++ [e]) :
    placeDemand [] ⟨.normal, .bl, p⟩ old = front ++ [⟨.normal, .bl, p⟩] := by
  obtain rfl | ⟨e, he, rfl⟩ := h
  · rw [placeDemand_of_new [] _ hf]
    exact insertByKey_eq_append _ fun e _ => demandKey_nil_le e
  · exact placeDemand_of_split [] ⟨.normal, .bl, p⟩ he hf (by simp)

end

/-! ### The checks -/

theorem actOfNumber_eq_none {n : Nat} (h : n = 0 ∨ 64 < n) : actOfNumber n = none := dif_neg (by omega)

/-- The speed sent with ON in its range (R54). -/
theorem rangedOn_spec (m n : Nat) (hm : m ≤ 1000) :
    (n = 0 → rangedOn m n = .off) ∧ (1 ≤ n → n ≤ m → rangedOn m n = .on m)
      ∧ (m < n → n ≤ 1000 → rangedOn m n = .on n) ∧ (1000 < n → rangedOn m n = .on 1000) := by
  unfold rangedOn
  refine ⟨fun h => if_pos h, fun h1 h2 => ?_, fun h1 h2 => ?_, fun h => ?_⟩
  · rw [if_neg (by omega), if_pos h2]
  · rw [if_neg (by omega), if_neg (by omega), Nat.min_eq_right h2]
  · rw [if_neg (by omega), if_neg (by omega), Nat.min_eq_left h.le]

/-- What a setting asks, as a position to place or none. -/
def Asked.place? : Asked → Option Position
  | .place p => some p
  | .release => none

section
variable (k : ActId → Asked → Owner) (t : State) {n : Nat} {a : ActId} {st : Setting} {speed : Nat}

theorem settingAsked_malformed : settingAsked .malformed k t = (t, .error .badArgument) := rfl

theorem settingAsked_out_of_range (h : n = 0 ∨ 64 < n) :
    settingAsked (.fields ⟨n, st, speed⟩) k t = (t, .error .badArgument) := by
  unfold settingAsked
  rw [withFields_fields, actOfNumber_eq_none h]
  rfl

/-- A setting that does not fit its channel is refused (R55, R58). -/
theorem settingAsked_refused (ha : actOfNumber n = some a)
    (h : askedOf (t.site.works.plant.chans.look a) st speed = .error .badArgument) :
    settingAsked (.fields ⟨n, st, speed⟩) k t = (t, .error .badArgument) := by
  unfold settingAsked
  rw [withFields_fields, ha, withId_some]
  dsimp only
  rw [h]

theorem settingAsked_passes (ha : actOfNumber n = some a) {q : Asked}
    (h : askedOf (t.site.works.plant.chans.look a) st speed = .ok q) :
    settingAsked (.fields ⟨n, st, speed⟩) k t = k a q t := by
  unfold settingAsked
  rw [withFields_fields, ha, withId_some]
  dsimp only
  rw [h]

end

/-- A setting fits its channel as R55 and R58 say, and asks for its position or the removal. -/
theorem askedOf_eq_ok {c : Channel} {st : Setting} {speed : Nat} {q : Option Position}
    (h : match c, st with
      | .unassigned, _ => False
      | _, .release => q = none
      | .damper _, .opened => q = some (.damper .opened)
      | .damper _, .closed => q = some (.damper .closed)
      | .fan _, .off => q = some (.fan .off)
      | .fan f, .on => q = some (.fan (rangedOn f.cfg.minSpeed speed))
      | _, _ => False) : ∃ r, askedOf c st speed = .ok r ∧ r.place? = q := by
  cases c with
  | unassigned => exact h.elim
  | damper d =>
    cases st with
    | opened | closed | release => exact ⟨_, rfl, h.symm⟩
    | off | on => exact h.elim
  | fan f =>
    cases st with
    | off | on | release => exact ⟨_, rfl, h.symm⟩
    | opened | closed => exact h.elim

theorem askedOf_misfit {c : Channel} {st : Setting} {speed : Nat}
    (h : c = .unassigned ∨ (∃ d, c = .damper d ∧ (st = .on ∨ st = .off))
      ∨ (∃ f, c = .fan f ∧ (st = .opened ∨ st = .closed))) :
    askedOf c st speed = .error .badArgument := by
  obtain rfl | ⟨d, rfl, rfl | rfl⟩ | ⟨f, rfl, rfl | rfl⟩ := h <;> rfl

/-! ### The requests -/

section
variable (s : State) (b : Body SettingArgs) (e : Reason)

/-- Both requests are refused alike where the setting is (R55, R58). -/
theorem exec_setOverride_refused (hs : s.taking .ff = true)
    (h : ∀ k t, t.site.works.plant.chans = s.plant.chans → settingAsked b k t = (t, .error e)) :
    exec (.setOverride .ff b) s = .next ((s.supervise .ff).reply .ff (.error e)) := by
  refine congrArg _ ((s.serve_taken .ff _ _ hs rfl).trans ?_)
  rw [h _ _ (s.supervise_chans .ff)]

theorem exec_setNormal_refused (hs : s.taking .bl = true)
    (h : ∀ k t, t.site.works.plant.chans = s.plant.chans → settingAsked b k t = (t, .error e)) :
    exec (.setNormal .bl b) s = .next ((s.supervise .bl).reply .bl (.error e)) := by
  refine congrArg _ ((s.serve_taken .bl _ _ hs rfl).trans ?_)
  rw [h _ _ (s.supervise_chans .bl)]

end

/-- What is asked of a list changes that list, and no other (R56, R59). -/
theorem Plant.ask_look (x : Plant) (order : List ZoneId) (a b : ActId) (cls : DemandClass) (o : Originator) (q : Asked) :
    (x.ask order a cls o q).demands.look b =
      if b = a then
        match q with
        | .place p => placeDemand order ⟨cls, o, p⟩ (x.demands.look a)
        | .release => dropOriginator o (x.demands.look a)
      else x.demands.look b := by
  cases q <;> exact x.setDemands_look b a _

/-- Settles O36: the checks refuse before the request acts, and an accepted one asks of the list what the setting says. -/
theorem overridesAndNormalsPlaceTheirEntries : Obligations.OverridesAndNormalsPlaceTheirEntries := by
  refine ⟨fun m n _ hm => rangedOn_spec m n hm, fun s n speed a st hff hbl ha misfit => ?_, fun s => ?_,
    fun s n speed a st q ha fits => ?_⟩
  · have refused (k : ActId → Asked → Owner) (t : State) (ht : t.site.works.plant.chans = s.plant.chans) :=
      settingAsked_refused k t (speed := speed) ha (ht ▸ askedOf_misfit misfit)
    exact ⟨exec_setOverride_refused s _ _ hff refused, exec_setNormal_refused s _ _ hbl refused⟩
  · dsimp only
    refine ⟨fun hff => ⟨?_, fun n st speed h => ?_⟩, fun hbl => ⟨?_, fun n st speed h => ?_⟩⟩
    · exact exec_setOverride_refused s _ _ hff fun k t _ => settingAsked_malformed k t
    · exact exec_setOverride_refused s _ _ hff fun k t _ => settingAsked_out_of_range k t h
    · exact exec_setNormal_refused s _ _ hbl fun k t _ => settingAsked_malformed k t
    · exact exec_setNormal_refused s _ _ hbl fun k t _ => settingAsked_out_of_range k t h
  · obtain ⟨r, asked, rfl⟩ := askedOf_eq_ok (c := s.plant.chans.look a) (st := st) (speed := speed) (q := q) fits
    clear fits
    intro old asks
    have asks_eq : asks = fun order cls o x => x.ask order a cls o r := by
      cases r <;> rfl
    clear_value asks
    subst asks_eq
    have others (x : Plant) (order : List ZoneId) (cls : DemandClass) (o : Originator) (b : ActId) (hb : b ≠ a) :
        (x.ask order a cls o r).demands.look b = x.demands.look b :=
      (x.ask_look order a b cls o r).trans (if_neg hb)
    have taken (x : Plant) (order : List ZoneId) (cls : DemandClass) (o : Originator) (hr : r.place? = none) :
        (x.ask order a cls o r).demands.look a = (x.demands.look a).filter fun e => e.orig != o := by
      cases r with
      | place p => cases hr
      | release => exact (x.ask_look order a a cls o _).trans (if_pos rfl)
    have placed (x : Plant) (order : List ZoneId) (cls : DemandClass) (o : Originator) (p : Position) (hr : r.place? = some p) :
        (x.ask order a cls o r).demands.look a = placeDemand order ⟨cls, o, p⟩ (x.demands.look a) := by
      cases r with
      | place p' => cases hr; exact (x.ask_look order a a cls o _).trans (if_pos rfl)
      | release => cases hr
    have held (p : Port) : askedOf ((s.supervise p).site.works.plant.chans.look a) st speed = .ok r := by
      rw [s.supervise_chans p]; exact asked
    have rest_eq (p : Port) (b : ActId) : (s.supervise p).plant.demands.look b = s.plant.demands.look b := by
      unfold State.plant
      rw [s.supervise_demands]
    have old_eq (p : Port) : (s.supervise p).plant.demands.look a = old := rest_eq p a
    refine ⟨fun hff => ⟨?_, fun b hb => ?_, fun hr => ?_, fun p rest hr hrest hold => ?_⟩,
      fun hbl => ⟨fun hi => ?_, fun hi => ⟨?_, fun b hb => ?_, fun hr => ?_, fun p front hr hfront hold => ?_⟩⟩⟩
    · refine congrArg _ ((s.serve_taken .ff _ _ hff rfl).trans ?_)
      rw [settingAsked_passes _ _ ha (held .ff), ← s.supervise_ic .ff]
      rfl
    · exact (others _ _ _ _ b hb).trans (rest_eq .ff b)
    · rw [taken _ _ _ _ hr, old_eq]
    · rw [placed _ _ _ _ p hr, old_eq]
      exact placeDemand_manual _ hrest hold
    · refine congrArg _ ((s.serve_taken .bl _ _ hbl rfl).trans ?_)
      rw [settingAsked_passes _ _ ha (held .bl), require_of_false _ (by simp [hi])]
    · have quiet : (s.supervise .bl).site.ic.fireOrder = [] := by
        rw [s.supervise_ic]
        simpa [State.incident] using hi
      refine congrArg _ ((s.serve_taken .bl _ _ hbl rfl).trans ?_)
      rw [settingAsked_passes _ _ ha (held .bl), require_of_true _ (by simp [hi]), quiet]
      rfl
    · exact (others _ _ _ _ b hb).trans (rest_eq .bl b)
    · rw [taken _ _ _ _ hr, old_eq]
    · rw [placed _ _ _ _ p hr, old_eq]
      exact placeDemand_normal hfront hold

end Sys2Proof.Machine
end

section
/-!
SUPPORT. What the demand lists fix of the channels: targets and classes change by a changed list alone, and then to the resolved
demand.
-/

namespace Sys2Proof.Machine

/-! ### What goes by the configuration of a channel -/

/-- The minimum speed is at most 1000 ‰ (R83). -/
def ChanCfg.Bounded (c : ChanCfg) : Prop := ∀ f, c = .fan f → f.minSpeed ≤ 1000

theorem ChanCfg.bounded_fan {f : FanCfg} (h : f.minSpeed ≤ 1000) : (ChanCfg.fan f).Bounded := fun _ e => ChanCfg.fan.inj e ▸ h

theorem ChanCfg.bounded_of_other {c : ChanCfg} (h : ∀ f, c ≠ .fan f) : c.Bounded := fun f e => absurd e (h f)

/-- The configuration says which positions a list may hold (R46) and where the channel rests (R48). -/
theorem Channel.admits_restPos_congr {c d : Channel} (h : c.config = d.config) :
    (∀ p, c.admits p = d.admits p) ∧ c.restPos = d.restPos := by
  cases c with
  | unassigned => cases d <;> cases h; exact ⟨fun _ => rfl, rfl⟩
  | damper e =>
    cases d with
    | damper f =>
      have cfg : e.cfg = f.cfg := ChanCfg.damper.inj h
      exact ⟨fun p => by cases p <;> rfl, by simp [Channel.restPos, cfg]⟩
    | _ => cases h
  | fan f =>
    cases d with
    | fan g =>
      have cfg : f.cfg = g.cfg := ChanCfg.fan.inj h
      refine ⟨fun p => ?_, rfl⟩
      cases p with
      | damper q => rfl
      | fan t => cases t <;> simp [Channel.admits, cfg]
    | _ => cases h

theorem Channel.admits_congr {c d : Channel} (h : c.config = d.config) (p : Position) : c.admits p = d.admits p :=
  (Channel.admits_restPos_congr h).1 p

theorem resolve_congr {c d : Channel} (h : c.config = d.config) (l : List Demand) : resolve c l = resolve d l := by
  unfold resolve
  rw [(Channel.admits_restPos_congr h).2]

/-! ### The aim of a channel -/

/-- What a demand list fixes of its channel: target, and a fan's class. -/
inductive Aim where
  | unassigned
  | damper (target : DamperPos)
  | fan (target : FanTarget) (cls : ResolvedClass)

def Channel.aim : Channel → Aim
  | .unassigned => .unassigned
  | .damper d => .damper d.target
  | .fan f => .fan f.target f.cls

/-- The aim is that of a resolved demand (R48, R49). -/
def Aim.Follows : Aim → Option Resolved → Prop
  | .unassigned, _ => True
  | .damper p, r => ∃ c o, r = some ⟨.damper p, c, o⟩
  | .fan t k, r => ∃ o, r = some ⟨.fan t, k, o⟩

/-- Channel `a`'s list fits it, and its aim is that of its resolved demand (R46, R48, R49). -/
structure Plant.FollowsAt (x : Plant) (a : ActId) : Prop where
  bounded : (x.chans.look a).config.Bounded
  admits : ∀ e ∈ x.demands.look a, (x.chans.look a).admits e.pos = true
  follows : (x.chans.look a).aim.Follows (x.resolved a)

/-- The demand lists and every channel's configuration and aim are the same. -/
structure Plant.Steady (x y : Plant) : Prop where
  config : ∀ a, (y.chans.look a).config = (x.chans.look a).config
  aim : ∀ a, (y.chans.look a).aim = (x.chans.look a).aim
  demands : y.demands = x.demands

section
variable {x y z : Plant}

theorem Plant.targetsFollow_iff : x.TargetsFollow ↔ ∀ a, x.FollowsAt a := by
  constructor
  · rintro ⟨hm, he, hd, hf⟩ a
    cases h : x.chans.look a with
    | unassigned => exact ⟨by rw [h]; exact ChanCfg.bounded_of_other (by simp [Channel.config]), he a, by rw [h]; trivial⟩
    | damper d => exact ⟨by rw [h]; exact ChanCfg.bounded_of_other (by simp [Channel.config]), he a, by rw [h]; exact hd a d h⟩
    | fan f => exact ⟨by rw [h]; exact ChanCfg.bounded_fan (hm a f h), he a, by rw [h]; exact hf a f h⟩
  · intro h
    refine ⟨fun a f hf => ?_, fun a => (h a).admits, fun a d hd => ?_, fun a f hf => ?_⟩
    · exact (h a).bounded f.cfg (by rw [hf]; rfl)
    · have follows := (h a).follows
      rwa [hd] at follows
    · have follows := (h a).follows
      rwa [hf] at follows

theorem Plant.Steady.refl (x : Plant) : Plant.Steady x x := ⟨fun _ => rfl, fun _ => rfl, rfl⟩

theorem Plant.Steady.trans (h : Plant.Steady x y) (i : Plant.Steady y z) : Plant.Steady x z :=
  ⟨fun a => (i.config a).trans (h.config a), fun a => (i.aim a).trans (h.aim a), i.demands.trans h.demands⟩

theorem Plant.Steady.of_same (hc : y.chans = x.chans) (hd : y.demands = x.demands) : Plant.Steady x y :=
  ⟨fun a => by rw [hc], fun a => by rw [hc], hd⟩

theorem Plant.Steady.followsAt (h : Plant.Steady x y) {a : ActId} (hx : x.FollowsAt a) : y.FollowsAt a where
  bounded := (h.config a).symm ▸ hx.bounded
  admits e he := by
    rw [Channel.admits_congr (h.config a)]
    exact hx.admits e (h.demands ▸ he)
  follows := by
    unfold Plant.resolved
    rw [h.aim, h.demands, resolve_congr (h.config a)]
    exact hx.follows

theorem Plant.Steady.targetsFollow (h : Plant.Steady x y) (hx : x.TargetsFollow) : y.TargetsFollow :=
  Plant.targetsFollow_iff.mpr fun a => h.followsAt (Plant.targetsFollow_iff.mp hx a)

/-- The fans' work keeps every configuration and aim. -/
theorem Plant.Stirs.steady {P : ActId → Prop} (h : Plant.Stirs P x y) : Plant.Steady x y where
  config a := by
    obtain e | ⟨-, f, r, hf, hr, hc, -⟩ := h.look a
    · rw [e]
    · rw [hf, hr, Channel.config, Channel.config, hc]
  aim a := by
    obtain e | ⟨-, f, r, hf, hr, -, ht, hk⟩ := h.look a
    · rw [e]
    · rw [hf, hr, Channel.aim, Channel.aim, ht, hk]
  demands := h.keeps.1.demands

theorem Plant.setChan_steady (x : Plant) (a : ActId) (c : Channel) (hc : c.config = (x.chans.look a).config)
    (h : c.aim = (x.chans.look a).aim) : Plant.Steady x (x.setChan a c) where
  config b := by
    rw [Plant.setChan_chans, Table.look_put]
    split
    case isTrue e => rw [hc, e]
    case isFalse => rfl
  aim b := by
    rw [Plant.setChan_chans, Table.look_put]
    split
    case isTrue e => rw [h, e]
    case isFalse => rfl
  demands := rfl

end

/-! ### A changed list -/

section
variable (x : Plant) (a : ActId)

/-- A channel that takes a resolved demand of its kind takes its aim, and no other channel's aim changes (R69, R86). -/
theorem Plant.channelTakes_aim (r : Resolved) (h : (x.chans.look a).fits r.pos = true) :
    ((x.channelTakes a r).chans.look a).aim.Follows (some r)
      ∧ ∀ b, b ≠ a → ((x.channelTakes a r).chans.look b).aim = (x.chans.look b).aim := by
  have taken {c : Channel} (w : Plant.FansWork (x.setChan a c) (x.channelTakes a r)) (hc : c.aim.Follows (some r)) :
      ((x.channelTakes a r).chans.look a).aim.Follows (some r)
        ∧ ∀ b, b ≠ a → ((x.channelTakes a r).chans.look b).aim = (x.chans.look b).aim := by
    refine ⟨?_, fun b hb => ?_⟩
    · rw [w.steady.aim, Plant.setChan_chans, Table.look_put_same]
      exact hc
    · rw [w.steady.aim, Plant.setChan_chans, Table.look_put_other _ _ _ _ hb]
  obtain ⟨p, k, o⟩ := r
  cases hc : x.chans.look a with
  | unassigned => rw [hc] at h; cases h
  | damper d =>
    cases p with
    | damper p => exact taken (x.damperTarget_fansWork a p hc) ⟨_, _, by rw [Damper.aimed_target]⟩
    | fan t => rw [hc] at h; cases h
  | fan f =>
    cases p with
    | damper p => rw [hc] at h; cases h
    | fan t => exact taken (Plant.fanTarget_fansWork hc t k) ⟨_, rfl⟩

theorem Channel.fits_of_admits {c : Channel} {p : Position} (h : c.admits p = true) : c.fits p = true := by
  cases c <;> cases p <;> first | rfl | cases h

/-- Nothing resolves at an UNASSIGNED channel, and every list resolves elsewhere (R48). -/
theorem resolve_eq_none {c : Channel} {l : List Demand} (h : resolve c l = none) : c = .unassigned := by
  cases c with
  | unassigned => rfl
  | _ => cases l <;> cases h

theorem resolve_isSome {c : Channel} {l : List Demand} {r : Resolved} (h : resolve c l = some r) (k : List Demand) :
    ∃ old, resolve c k = some old := by
  cases c with
  | unassigned => cases h
  | _ => cases k <;> exact ⟨_, rfl⟩

/-- Every position that a list of fitting entries resolves to fits the channel (R46, R48). -/
theorem resolve_fits {c : Channel} {l : List Demand} {r : Resolved} (h : resolve c l = some r)
    (hl : ∀ e ∈ l, c.admits e.pos = true) : c.fits r.pos = true := by
  cases l with
  | nil =>
    cases c <;> cases h <;> rfl
  | cons e l =>
    have pos : r.pos = e.pos := by
      unfold resolve at h
      split at h
      · cases h
      · cases h; rfl
    rw [pos]
    exact Channel.fits_of_admits (hl e List.mem_cons_self)

/-- A list of fitting entries put in the place of another, and all that it hands on, leaves every target resolved (R49). -/
theorem Plant.setDemands_targetsFollow (l : List Demand) (hl : ∀ e ∈ l, (x.chans.look a).admits e.pos = true)
    (hx : x.TargetsFollow) : (x.setDemands a l).TargetsFollow := by
  rw [Plant.targetsFollow_iff] at hx ⊢
  have config := (x.setDemands_runs a l).config
  have aims : ((x.setDemands a l).chans.look a).aim.Follows (resolve (x.chans.look a) l)
      ∧ ∀ b, b ≠ a → ((x.setDemands a l).chans.look b).aim = (x.chans.look b).aim := by
    cases hn : resolve (x.chans.look a) l with
    | none =>
      have bare := resolve_eq_none hn
      have chans : (x.setDemands a l).chans = x.chans := by
        simp [Plant.setDemands, Plant.resolved, bare, resolve, Channel.restPos]
      rw [chans, bare]
      exact ⟨trivial, fun _ _ => rfl⟩
    | some new =>
      obtain ⟨old, ho⟩ : ∃ old, x.resolved a = some old := resolve_isSome hn _
      by_cases same : old = new
      · subst same
        rw [x.setDemands_of_same a l ho hn]
        exact ⟨ho ▸ (hx a).follows, fun _ _ => rfl⟩
      · rw [x.setDemands_of_change a l ho hn same]
        have announced := (x.announced a l old new).channelTakes_aim a new (by simpa using resolve_fits hn hl)
        simpa using announced
  intro b
  refine ⟨(config b).symm ▸ (hx b).bounded, fun e he => ?_, ?_⟩
  · rw [Channel.admits_congr (config b)]
    rw [Plant.setDemands_look] at he
    split at he
    case isTrue hb => exact hb ▸ hl e he
    case isFalse => exact (hx b).admits e he
  · unfold Plant.resolved
    rw [resolve_congr (config b), Plant.setDemands_look]
    split
    case isTrue hb => rw [hb]; exact aims.1
    case isFalse hb => rw [aims.2 b hb]; exact (hx b).follows

end

end Sys2Proof.Machine
end

section
/-!
SUPPORT. The events of the channels leave the demand lists and every aim: timers, switches, proof, CLEAR FAULT, the slew update and
the passing of the Timebase.
-/

namespace Sys2Proof.Machine

section
variable (x : Plant) (a : ActId)

/-! ### The Timebase and the slew update -/

/-- Every channel changed alike keeps configuration and aim where the change does. -/
theorem Plant.map_steady (g : Channel → Channel) (hg : ∀ c, (g c).config = c.config ∧ (g c).aim = c.aim) :
    Plant.Steady x { x with chans := x.chans.map g } where
  config a := by rw [Table.look_map]; exact (hg _).1
  aim a := by rw [Table.look_map]; exact (hg _).2
  demands := rfl

theorem Plant.reach_steady (d : Nat) : Plant.Steady x (x.reach d) := by
  have duty : Plant.Steady x { x with chans := x.chansAt (max x.now d) } := by
    unfold Plant.chansAt
    split
    · exact x.map_steady _ fun c => by cases c <;> exact ⟨rfl, rfl⟩
    · exact .refl x
  exact duty.trans (.of_same rfl rfl)

theorem Plant.slewUpdate_steady : Plant.Steady x x.slewUpdate :=
  x.map_steady _ fun c => by
    cases c with
    | fan f => unfold Channel.slew; dsimp only; split <;> exact ⟨rfl, rfl⟩
    | _ => exact ⟨rfl, rfl⟩

/-! ### Dampers -/

/-- A damper's new record keeps configuration and target, and what it hands on makes fans work (R79). -/
theorem Plant.damperEnter_steady {d : Damper} (h : x.chans.look a = .damper d) (was : DamperState) (r : Damper) (k : ReportKind)
    (e : Option Detail) (hc : r.cfg = d.cfg := by rfl) (ht : r.target = d.target := by rfl) :
    Plant.Steady x (x.damperEnter a was r k e) := by
  refine (x.setChan_steady a _ ?_ ?_).trans (x.damperEnter_fansWork a was r k e).steady
  · rw [h, Channel.config, Channel.config, hc]
  · rw [h, Channel.aim, Channel.aim, ht]

theorem Plant.capture_chans (n : Nat) (t : Option Nat) : (x.capture a n t).chans = x.chans := by
  unfold Plant.capture
  split <;> rfl

theorem Plant.capture_steady (n : Nat) (t : Option Nat) : Plant.Steady x (x.capture a n t) := by
  refine .of_same (x.capture_chans a n t) ?_
  unfold Plant.capture
  split <;> rfl

theorem Plant.arrive_steady {d : Damper} (h : x.chans.look a = .damper d) (k : ReportKind) :
    Plant.Steady x (x.arrive a d k) :=
  (x.capture_steady a _ _).trans (Plant.damperEnter_steady _ a (by rwa [Plant.capture_chans]) _ _ _ _)

theorem Plant.damperSwitch_steady {d : Damper} (h : x.chans.look a = .damper d) : Plant.Steady x (x.damperSwitch a d) := by
  have faulted : Plant.Steady x (x.enterSwitchFault a d) := x.damperEnter_steady a h _ _ _ _
  have arrived (k : ReportKind) : Plant.Steady x (x.arrive a d k) := x.arrive_steady a h k
  unfold Plant.damperSwitch
  dsimp only
  cases d.state with
  | opening | closing =>
    dsimp only
    split
    · exact arrived _
    · split
      · exact faulted
      · exact .refl x
  | atOpen | atClosed =>
    dsimp only
    split
    · exact faulted
    · split
      · exact .refl x
      · exact x.damperEnter_steady a h _ _ _ _
  | travelFault =>
    dsimp only
    split
    · exact arrived _
    · split
      · exact faulted
      · exact .refl x
  | switchFault =>
    dsimp only
    split
    · exact .refl x
    · split
      · exact x.damperEnter_steady a h _ _ _ _
      · exact x.damperEnter_steady a h _ _ _ _

theorem Plant.switchChange_steady (o c : Bool) : Plant.Steady x (x.switchChange a o c) := by
  have switched : Plant.Steady x (x.setSwitches a o c) := .of_same rfl rfl
  unfold Plant.switchChange
  dsimp only
  split
  case h_1 => exact switched
  case h_2 => exact .refl x
  case h_3 d hd =>
    split
    · exact .refl x
    · exact switched.trans (Plant.damperSwitch_steady _ a hd)

theorem Plant.travelExpiry_steady : Plant.Steady x (x.travelExpiry a) := by
  unfold Plant.travelExpiry
  split
  case h_2 => exact .refl x
  case h_1 d hd =>
    split
    case h_2 => exact .refl x
    case h_1 t ht =>
      split
      · have reached := x.reach_look t a
        rw [(x.damper?_eq_some a).mp hd] at reached
        exact (x.reach_steady t).trans (Plant.damperEnter_steady _ a (reached.elim id id) _ _ _ _)
      · exact .refl x

theorem Plant.clearDamper_steady : Plant.Steady x (x.clearDamper a) := by
  unfold Plant.clearDamper
  split
  case h_2 => exact .refl x
  case h_1 d hd =>
    split
    · exact x.damperEnter_steady a ((x.damper?_eq_some a).mp hd) _ _ _ _
    · exact .refl x

/-! ### Fans -/

/-- A fan enters a state and reports it. -/
theorem Plant.fanEnter_reportFan_steady (st : FanState) (g : Fan → Fan) (c : FanCause)
    (hg : Fan.AimKept g := by intro f; exact ⟨rfl, rfl, rfl⟩) : Plant.Steady x ((x.fanEnter a st g).reportFan a st c) :=
  Plant.Stirs.steady (P := fun _ => True) (x.fanEnter_reportFan_stirs a trivial st g c hg)

theorem Plant.setProof_steady (v : Bool) : Plant.Steady x (x.setProof a v) := .of_same rfl rfl

theorem Plant.clearFan_steady : Plant.Steady x (x.clearFan a) := by
  unfold Plant.clearFan
  split
  case h_2 => exact .refl x
  case h_1 =>
    split
    · exact x.fanEnter_reportFan_steady a _ _ _
    · exact x.fanEnter_reportFan_steady a _ _ _
    · exact .refl x

theorem Plant.proofArrives_steady : Plant.Steady x (x.proofArrives a) := by
  have known := x.setProof_steady a true
  unfold Plant.proofArrives
  split
  case h_1 => exact .refl x
  case h_2 => exact known
  case h_3 =>
    split
    · exact .refl x
    · split
      · exact known.trans (Plant.fanEnter_reportFan_steady _ a _ _ _)
      · exact known

theorem Plant.completeStop_steady : Plant.Steady x (x.completeStop Plant.walk a) :=
  (Plant.completeStop_stirs (fun y hy => y.walk_stirs hy) x a x.restsOutside_all trivial).steady

theorem Plant.proofLost_steady : Plant.Steady x (x.proofLost a) := by
  have known := x.setProof_steady a false
  unfold Plant.proofLost
  split
  case h_1 => exact .refl x
  case h_2 => exact known
  case h_3 =>
    split
    · exact .refl x
    · dsimp only
      split
      · exact known.trans (Plant.fanEnter_reportFan_steady _ a _ _ _)
      · exact known.trans (Plant.completeStop_steady _ a)
      · exact known.trans (Plant.completeStop_steady _ a)
      · exact known

theorem Plant.proofExpiry_steady : Plant.Steady x (x.proofExpiry a) := by
  unfold Plant.proofExpiry
  split
  · split
    · exact (x.reach_steady _).trans (Plant.fanEnter_reportFan_steady _ a _ _ _)
    · exact .refl x
  · exact .refl x

theorem Plant.runDownExpiry_steady : Plant.Steady x (x.runDownExpiry a) := by
  unfold Plant.runDownExpiry
  split
  · split
    · exact (x.reach_steady _).trans (Plant.fanEnter_reportFan_steady _ a _ _ _)
    · exact .refl x
  · exact .refl x

theorem Plant.staggerExpiry_steady : Plant.Steady x x.staggerExpiry := by
  unfold Plant.staggerExpiry
  split
  case h_2 => exact .refl x
  case h_1 d _ =>
    have elapsed : Plant.Steady x { x.reach d with stagger := none } := (x.reach_steady d).trans (.of_same rfl rfl)
    exact elapsed.trans (Plant.walk_stirs _ (Plant.restsOutside_all _)).steady

end

end Sys2Proof.Machine
end

section
/-!
SUPPORT. How demands are resolved while zones execute: the operations of the Plan Executor and the requests for an entry are runs of
a few kinds of change of the demand lists and the posted tables.
-/

namespace Sys2Proof.Machine

/-- The class of the entries that an originator other than a zone may place (R52). -/
def Originator.owns : Originator → DemandClass → Prop
  | .ff, k => k = .manual
  | .bl, k => k = .normal
  | .zone _, _ => False

/-- Position `p` may stand in the list of channel `a`, as far as the minimum speed is in range (R46, R83). -/
def Plant.Takes (x : Plant) (a : ActId) (p : Position) : Prop :=
  (x.chans.look a).config.Bounded → (x.chans.look a).admits p = true

/-- A change of a context keeps its class and its posted table. -/
def Ctx.PostedKept (g : Ctx → Ctx) : Prop := ∀ c, (g c).cls = c.cls ∧ (g c).posted = c.posted

/-- From `w` to `v` the works have gone on under a fire order, no zone's execution beginning or ending: the channels by themselves,
the tests, what is not posted of a context, a zone's entry posted and recorded, an entry of FF or BL placed, an entry taken out
whose originator is no executing zone, and a list put in the order of R47. -/
inductive Works.Goes (order : List ZoneId) : Works → Works → Prop
  | refl (w : Works) : Goes order w w
  | trans {u v w : Works} (h : Goes order u v) (i : Goes order v w) : Goes order u w
  | plant (w : Works) (x : Plant) (h : Plant.Steady w.plant x) : Goes order w { w with plant := x }
  | tests (w : Works) (t : TestSeq) (h : t.test.map Test.zone = w.ts.test.map Test.zone) : Goes order w { w with ts := t }
  | ctx (w : Works) (z : ZoneId) (g : Ctx → Ctx) (h : Ctx.PostedKept g := by intro c; exact ⟨rfl, rfl⟩) :
      Goes order w (w.modCtx z g)
  | post (w : Works) (z : ZoneId) (a : ActId) (p : Position) (g : Ctx → Ctx) (c : Ctx) (hc : w.ctx z = some c)
      (hp : w.plant.Takes a p) (h : (g c).cls = c.cls ∧ (g c).posted = recordPosted a p c.posted) :
      Goes order w ((w.onPlant fun x => x.post order a ⟨c.cls.demand, .zone z, p⟩).modCtx z g)
  | place (w : Works) (a : ActId) (d : Demand) (hd : d.orig.owns d.cls) (hp : w.plant.Takes a d.pos) :
      Goes order w (w.onPlant fun x => x.post order a d)
  | drop (w : Works) (o : Originator) (a : ActId) (h : ∀ z, o = .zone z → w.ctx z = none) :
      Goes order w (w.onPlant fun x => x.drop o a)
  | reorder (w : Works) (a : ActId) : Goes order w (w.onPlant fun x => x.reorder order a)

theorem Works.Goes.foldl {α : Type} {order : List ZoneId} {g : Works → α → Works} (hg : ∀ w a, Works.Goes order w (g w a))
    (l : List α) (w : Works) : Works.Goes order w (l.foldl g w) := by
  induction l generalizing w with
  | nil => exact .refl w
  | cons a l ih => exact (hg w a).trans (ih _)

/-- A position that fits a channel may stand in its list once it is raised to the minimum speed (R31, R32). -/
theorem Channel.admits_raised {c : Channel} {p : Position} (h : c.fits p = true) : c.admits (c.raised p) = true := by
  cases c with
  | unassigned => cases h
  | damper d =>
    cases p with
    | damper p => rfl
    | fan t => cases h
  | fan f =>
    cases p with
    | damper p => cases h
    | fan t => cases t <;> simp [Channel.raised, Channel.admits]

section
variable (m : Pmc) (order : List ZoneId) (z : ZoneId) (w : Works)

theorem Works.report_goes (k : ReportKind) (u : Option Subject) (n : Option NewState) (d : Option Detail) :
    Works.Goes order w (w.report k u n d) := .plant w _ (.of_same rfl rfl)

theorem Works.onPlant_goes (g : Plant → Plant) (h : Plant.Steady w.plant (g w.plant)) : Works.Goes order w (w.onPlant g) :=
  .plant w _ h

theorem Works.findings_goes (g : List Finding → List Finding) : Works.Goes order w { w with ts := w.ts.addFinding g } :=
  .tests w _ (by rw [TestSeq.addFinding_test])

/-! ### A step of a plan -/

theorem Works.postEntry_goes (k : Nat) (e : PlanEntry) : Works.Goes order w (w.postEntry order z k e) := by
  unfold Works.postEntry
  split
  case h_1 => exact .refl w
  case h_2 c hc =>
    dsimp only
    split
    · exact (Works.Goes.ctx w z _).trans (Works.report_goes order _ _ _ _ _)
    case isFalse fits =>
      have takes : w.plant.Takes e.act ((w.plant.chans.look e.act).raised e.pos) := fun _ =>
        Channel.admits_raised (by simpa using fits)
      split
      · exact (w.findings_goes order _).trans (.post _ z _ _ _ c hc takes ⟨rfl, rfl⟩)
      · exact .post w z _ _ _ c hc takes ⟨rfl, rfl⟩

theorem Works.enterStep_goes (k : Nat) : Works.Goes order w (w.enterStep m order z k) := by
  unfold Works.enterStep
  split
  · exact .refl w
  split
  · exact .refl w
  · exact ((Works.Goes.ctx w z _).trans (Works.Goes.foldl (fun v e => v.postEntry_goes order z k e) _ _)).trans (.ctx _ z _)

theorem Works.established_goes : Works.Goes order w (w.established z) := by
  unfold Works.established
  split
  · split
    · exact .tests w _ (by simp [*])
    · exact .refl w
  · exact .refl w

theorem Works.advance_goes : Works.Goes order w (w.advance m order z) := by
  unfold Works.advance
  split
  · exact .refl w
  split
  · exact w.enterStep_goes m order z _
  · exact (Works.Goes.ctx w z _).trans (Works.established_goes ..)

theorem Works.endComplete_goes : Works.Goes order w (w.endComplete m order z) := by
  unfold Works.endComplete
  split
  · exact .refl w
  · dsimp only
    exact ((Works.Goes.ctx w z _).trans (Works.report_goes order _ _ _ _ _)).trans (Works.advance_goes ..)

theorem Works.endIncomplete_goes : Works.Goes order w (w.endIncomplete m order z) := by
  unfold Works.endIncomplete
  split
  · exact .refl w
  · dsimp only
    exact ((Works.Goes.ctx w z _).trans (Works.report_goes order _ _ _ _ _)).trans (Works.advance_goes ..)

/-! ### Settling -/

theorem Works.judge_goes : Works.Goes order w (w.judge m order z) := by
  unfold Works.judge
  split
  · exact .refl w
  split
  · exact w.endComplete_goes m order z
  · exact .refl w

theorem Works.takeNotes_goes : Works.Goes order w w.takeNotes := by
  have cleared : Works.Goes order w { w with plant := { w.plant with notes := [] } } := .plant w _ (.of_same rfl rfl)
  refine cleared.trans (Works.Goes.foldl (fun v n => ?_) _ _)
  cases n <;> unfold Works.takeNote <;> dsimp only <;> split
  · exact v.findings_goes order _
  · exact .refl v
  · exact v.findings_goes order _
  · exact .refl v

theorem Works.round_goes : Works.Goes order w (w.round m order) :=
  Works.round_keeps (Works.Goes order w) m order (fun _ h => h.trans (.plant _ _ (.of_same rfl rfl)))
    (fun z v h => h.trans (v.judge_goes m order z)) w (.refl w)

theorem Works.settle_goes : Works.Goes order w (w.settle m order) :=
  Works.settle_keeps (Works.Goes order w) m order (fun v h => h.trans (v.takeNotes_goes order))
    (fun v h => h.trans (v.round_goes m order)) w (.refl w)

/-- A change of the channels and all that it calls for. -/
theorem Works.change_goes (g : Plant → Plant) (h : Plant.Steady w.plant (g w.plant)) : Works.Goes order w (w.change m order g) :=
  (w.onPlant_goes order g h).trans (Works.settle_goes ..)

/-! ### Timers, withdrawals and orders -/

theorem Works.dwellExpiry_goes : Works.Goes order w (w.dwellExpiry m order z) := by
  unfold Works.dwellExpiry
  split
  · split
    · exact (((w.onPlant_goes order _ (w.plant.reach_steady _)).trans (.ctx _ z _)).trans
        (Works.judge_goes ..)).trans (Works.settle_goes ..)
    · exact .refl w
  · exact .refl w

theorem Works.stepTimeoutExpiry_goes : Works.Goes order w (w.stepTimeoutExpiry m order z) := by
  unfold Works.stepTimeoutExpiry
  split
  · split
    · exact ((w.onPlant_goes order _ (w.plant.reach_steady _)).trans (Works.endIncomplete_goes ..)).trans
        (Works.settle_goes ..)
    · exact .refl w
  · exact .refl w

theorem Works.reorder_goes : Works.Goes order w (w.reorder m order) :=
  Works.Goes.foldl (fun v a => (Works.Goes.reorder v a).trans (Works.settle_goes ..)) allActs w

theorem Works.withdrawNormals_goes : Works.Goes order w (w.withdrawNormals m order) :=
  Works.Goes.foldl (fun v a => (Works.Goes.drop v .bl a (fun _ h => by cases h)).trans (Works.settle_goes ..)) allActs w

end

end Sys2Proof.Machine
end

section
/-!
SUPPORT. What the resolution of demands keeps (`Works.Goes`): the targets resolved, one entry of an originator in a list, the entries
of every zone those of its posted table, and the order of every list.
-/

namespace Sys2Proof.Machine

/-! ### One list -/

section
variable (order : List ZoneId) (d : Demand) (l : List Demand)

/-- The members of a list with an entry placed: that one, and those of the other originators. -/
theorem mem_placeDemand_iff {e : Demand} : e ∈ placeDemand order d l ↔ e = d ∨ e ∈ l ∧ e.orig ≠ d.orig := by
  by_cases h : e.orig = d.orig
  · refine ⟨fun he => .inl ?_, fun he => ?_⟩
    · unfold placeDemand at he
      split at he
      · obtain ⟨q, hq, rfl⟩ := List.mem_map.mp he
        by_cases hqd : q.orig = d.orig
        · exact if_pos hqd
        · rw [if_neg hqd] at h
          exact absurd h hqd
      case isFalse none =>
        obtain rfl | he := (mem_insertByKey _).mp he
        · rfl
        · exact absurd (List.any_eq_true.mpr ⟨e, he, by simpa using h⟩) none
    · obtain rfl | ⟨-, hne⟩ := he
      · exact mem_placeDemand_self ..
      · exact absurd h hne
  · rw [mem_placeDemand_other order d l h]
    have ne : e ≠ d := fun k => h (congrArg Demand.orig k)
    simp [ne, h]

/-- A list with one entry of an originator at most stays so when an entry is placed (R46). -/
theorem placeDemand_once (h : (l.map Demand.orig).Nodup) : ((placeDemand order d l).map Demand.orig).Nodup := by
  unfold placeDemand
  split
  case isTrue =>
    have same : (l.map fun q => if q.orig = d.orig then d else q).map Demand.orig = l.map Demand.orig := by
      rw [List.map_map]
      refine List.map_congr_left fun q _ => ?_
      by_cases hq : q.orig = d.orig <;> simp [hq]
    rwa [same]
  case isFalse none =>
    refine (((insertByKey_perm _ d l).map Demand.orig).nodup_iff).mpr (List.nodup_cons.mpr ⟨fun hd => none ?_, h⟩)
    obtain ⟨q, hq, e⟩ := List.mem_map.mp hd
    exact List.any_eq_true.mpr ⟨q, hq, by simpa using e⟩

theorem dropOriginator_once (o : Originator) (h : (l.map Demand.orig).Nodup) :
    ((dropOriginator o l).map Demand.orig).Nodup :=
  h.sublist (List.filter_sublist.map _)

theorem sortByKey_once (key : Demand → Nat) (h : (l.map Demand.orig).Nodup) :
    ((sortByKey key l).map Demand.orig).Nodup :=
  (((sortByKey_perm key l).map Demand.orig).nodup_iff).mpr h

/-- A list in the order of its keys stays so when an entry is placed whose key tells its originator. -/
theorem placeDemand_pairwise (h : l.Pairwise fun e f => demandKey order e < demandKey order f)
    (hd : ∀ e ∈ l, demandKey order e = demandKey order d ↔ e.orig = d.orig) :
    (placeDemand order d l).Pairwise fun e f => demandKey order e < demandKey order f := by
  unfold placeDemand
  split
  case isTrue =>
    have key : ∀ e ∈ l, demandKey order (if e.orig = d.orig then d else e) = demandKey order e := fun e he => by
      by_cases ho : e.orig = d.orig
      · rw [if_pos ho, (hd e he).mpr ho]
      · rw [if_neg ho]
    rw [List.pairwise_map]
    refine h.imp_of_mem fun {e f} he hf hlt => ?_
    rwa [key e he, key f hf]
  case isFalse none =>
    refine insertByKey_pairwise _ h fun e he k => none ?_
    exact List.any_eq_true.mpr ⟨e, he, by simpa using (hd e he).mp k⟩

end

/-! ### The originators' entries -/

/-- An entry is of the class that its originator may place: a zone the one `k` knows it by (R52). -/
def Demand.Owned (k : ZoneId → Option ExecClass) (e : Demand) : Prop :=
  match e.orig with
  | .ff => e.cls = .manual
  | .bl => e.cls = .normal
  | .zone z => ∃ c, k z = some c ∧ e.cls = c.demand

/-- An entry that FF or BL may place is owned. -/
theorem Demand.owned_of_owns {d : Demand} (h : d.orig.owns d.cls) (k : ZoneId → Option ExecClass) : d.Owned k := by
  unfold Demand.Owned
  cases ho : d.orig with
  | zone z => rw [ho] at h; exact h.elim
  | _ => rw [ho] at h; exact h

/-- The zones known as executing for fire stand in the fire order, and one at most is known as under test: their entries have
places apart (R47, R116). -/
structure Seats (order : List ZoneId) (k : ZoneId → Option ExecClass) : Prop where
  once : order.Nodup
  fire : ∀ z, k z = some .fire → z ∈ order
  test : ∀ y z, k y = some .test → k z = some .test → y = z

section
variable {order : List ZoneId} {k : ZoneId → Option ExecClass} {d e : Demand}

/-- A zone's entry stands at its place in the fire order, or at that of a test (R47). -/
theorem Seats.zone_cases (s : Seats order k) (h : e.Owned k) {z : ZoneId} (hz : e.orig = .zone z) :
    k z = some .fire ∧ demandKey order e = 1 + order.idxOf z ∧ order.idxOf z < 48
      ∨ k z = some .test ∧ demandKey order e = 1000 := by
  obtain ⟨cls, orig, p⟩ := e
  cases hz
  obtain ⟨c, hc, rfl⟩ : ∃ c, k z = some c ∧ cls = c.demand := h
  cases c with
  | fire => exact .inl ⟨hc, rfl, (List.idxOf_lt_length_iff.mpr (s.fire z hc)).trans_le (zones_length_le s.once)⟩
  | test => exact .inr ⟨hc, rfl⟩

theorem Demand.Owned.key_ff (h : e.Owned k) (ho : e.orig = .ff) : demandKey order e = 0 := by
  obtain ⟨cls, orig, p⟩ := e
  cases ho
  obtain rfl : cls = .manual := h
  rfl

theorem Demand.Owned.key_bl (h : e.Owned k) (ho : e.orig = .bl) : demandKey order e = 1001 := by
  obtain ⟨cls, orig, p⟩ := e
  cases ho
  obtain rfl : cls = .normal := h
  rfl

/-- Two entries have one place only where they are of one originator. -/
theorem Seats.key_eq_iff (s : Seats order k) (hd : d.Owned k) (he : e.Owned k) :
    demandKey order d = demandKey order e ↔ d.orig = e.orig := by
  constructor
  · intro same
    cases ho : d.orig with
    | ff =>
      rw [hd.key_ff ho] at same
      cases hp : e.orig with
      | ff => rfl
      | bl => rw [he.key_bl hp] at same; cases same
      | zone z => obtain ⟨-, h, -⟩ | ⟨-, h⟩ := s.zone_cases he hp <;> omega
    | bl =>
      rw [hd.key_bl ho] at same
      cases hp : e.orig with
      | ff => rw [he.key_ff hp] at same; cases same
      | bl => rfl
      | zone z => obtain ⟨-, h, i⟩ | ⟨-, h⟩ := s.zone_cases he hp <;> omega
    | zone y =>
      cases hp : e.orig with
      | ff => have h := he.key_ff (order := order) hp; obtain ⟨-, i, -⟩ | ⟨-, i⟩ := s.zone_cases hd ho <;> omega
      | bl => have h := he.key_bl (order := order) hp; obtain ⟨-, i, j⟩ | ⟨-, i⟩ := s.zone_cases hd ho <;> omega
      | zone z =>
        obtain ⟨hy, i, iy⟩ | ⟨hy, i⟩ := s.zone_cases hd ho <;> obtain ⟨hz, j, jz⟩ | ⟨hz, j⟩ := s.zone_cases he hp
        · have idx : order.idxOf y = order.idxOf z := by omega
          rw [(List.idxOf_inj (s.fire y hy)).mp idx]
        · omega
        · omega
        · rw [s.test y z hy hz]
  · intro same
    cases ho : e.orig with
    | ff => rw [hd.key_ff (same.trans ho), he.key_ff ho]
    | bl => rw [hd.key_bl (same.trans ho), he.key_bl ho]
    | zone z =>
      obtain ⟨hy, i, -⟩ | ⟨hy, i⟩ := s.zone_cases hd (same.trans ho) <;>
        obtain ⟨hz, j, -⟩ | ⟨hz, j⟩ := s.zone_cases he ho
      · rw [i, j]
      · rw [hy] at hz; cases hz
      · rw [hy] at hz; cases hz
      · rw [i, j]

end

/-! ### Targets -/

section
variable {order : List ZoneId} {w v : Works}

/-- A list with an entry placed fits its channel. -/
theorem Plant.TargetsFollow.post {x : Plant} (h : x.TargetsFollow) {a : ActId} {d : Demand} (hd : x.Takes a d.pos) :
    (x.post order a d).TargetsFollow := by
  refine x.setDemands_targetsFollow a _ (fun e he => ?_) h
  have at_a := Plant.targetsFollow_iff.mp h a
  obtain rfl | ⟨he, -⟩ := (mem_placeDemand_iff ..).mp he
  · exact hd at_a.bounded
  · exact at_a.admits e he

/-- The targets of the channels stay those of their resolved demands (R46, R48, R49). -/
theorem Works.Goes.targetsFollow (h : Works.Goes order w v) (hw : w.plant.TargetsFollow) : v.plant.TargetsFollow := by
  induction h with
  | refl | tests => exact hw
  | trans _ _ ih ih' => exact ih' (ih hw)
  | plant w x hx => exact hx.targetsFollow hw
  | ctx w z g => rwa [Works.modCtx_plant]
  | post w z a p g c hc hp => rw [Works.modCtx_plant]; exact hw.post hp
  | place w a d hd hp => exact hw.post hp
  | drop w o a =>
    exact w.plant.setDemands_targetsFollow a _
      (fun e he => (Plant.targetsFollow_iff.mp hw a).admits e (mem_dropOriginator.mp he).1) hw
  | reorder w a =>
    exact w.plant.setDemands_targetsFollow a _
      (fun e he => (Plant.targetsFollow_iff.mp hw a).admits e ((mem_sortByKey _).mp he)) hw

/-! ### One entry of an originator -/

/-- No list holds two entries of one originator (R46). -/
def Plant.OneEach (x : Plant) : Prop := ∀ a, ((x.demands.look a).map Demand.orig).Nodup

theorem Plant.OneEach.setDemands {x : Plant} (h : x.OneEach) {a : ActId} {l : List Demand} (hl : (l.map Demand.orig).Nodup) :
    (x.setDemands a l).OneEach := by
  intro b
  rw [Plant.setDemands_look]
  split
  · exact hl
  · exact h b

theorem Works.Goes.oneEach (h : Works.Goes order w v) (hw : w.plant.OneEach) : v.plant.OneEach := by
  induction h with
  | refl | tests => exact hw
  | trans _ _ ih ih' => exact ih' (ih hw)
  | plant w x hx => exact fun a => by rw [hx.demands]; exact hw a
  | ctx w z g => rwa [Works.modCtx_plant]
  | post w z a p g c hc hp => rw [Works.modCtx_plant]; exact hw.setDemands (placeDemand_once _ _ _ (hw a))
  | place w a d hd hp => exact hw.setDemands (placeDemand_once _ _ _ (hw a))
  | drop w o a => exact hw.setDemands (dropOriginator_once _ _ (hw a))
  | reorder w a => exact hw.setDemands (sortByKey_once _ _ (hw a))

/-! ### Contexts -/

/-- No zone begins or ends its execution, and a context keeps its class; the test keeps its zone. -/
theorem Works.Goes.classes (h : Works.Goes order w v) :
    (∀ z, (v.ctx z).map Ctx.cls = (w.ctx z).map Ctx.cls) ∧ v.ts.test.map Test.zone = w.ts.test.map Test.zone := by
  have modCtx (w : Works) (y : ZoneId) (g : Ctx → Ctx) (hg : ∀ c, w.ctx y = some c → (g c).cls = c.cls) (z : ZoneId) :
      ((w.modCtx y g).ctx z).map Ctx.cls = (w.ctx z).map Ctx.cls := by
    by_cases e : z = y
    · subst e
      rw [Works.modCtx_ctx_same]
      cases hc : w.ctx z with
      | none => rfl
      | some c => simp [hg c hc]
    · rw [Works.modCtx_ctx_other _ _ _ _ e]
  induction h with
  | refl | plant | place | drop | reorder => exact ⟨fun _ => rfl, rfl⟩
  | tests w t ht => exact ⟨fun _ => rfl, ht⟩
  | trans _ _ ih ih' => exact ⟨fun z => (ih'.1 z).trans (ih.1 z), ih'.2.trans ih.2⟩
  | ctx w y g hg => exact ⟨modCtx w y g fun c _ => (hg c).1, by rw [Works.modCtx_ts]⟩
  | post w y a p g c hc hp hg =>
    refine ⟨modCtx (w.onPlant _) y g fun d hd => ?_, by rw [Works.modCtx_ts]; rfl⟩
    obtain rfl : c = d := Option.some.inj (hc.symm.trans hd)
    exact hg.1

theorem Works.Goes.ctx_isSome (h : Works.Goes order w v) (z : ZoneId) : (v.ctx z).isSome = (w.ctx z).isSome := by
  rw [← Option.isSome_map (f := Ctx.cls), h.classes.1 z, Option.isSome_map]

theorem Works.Goes.ctx_eq_none (h : Works.Goes order w v) {z : ZoneId} (hz : w.ctx z = none) : v.ctx z = none := by
  have none := h.ctx_isSome z
  rw [hz] at none
  simpa using none

/-! ### Posted tables -/

/-- Zone `z` has an entry at position `p` in the list of channel `a`. -/
def Plant.Posts (x : Plant) (z : ZoneId) (a : ActId) (p : Position) : Prop :=
  ∃ e ∈ x.demands.look a, e.orig = .zone z ∧ e.pos = p

/-- The demand lists agree with the contexts, each zone known to `k` by its class: one entry of an originator in a list (R46),
each owned (R52), and a zone's entries exactly those of its posted table (R24, R42). -/
structure Works.Right (k : ZoneId → Option ExecClass) (w : Works) : Prop where
  once : w.plant.OneEach
  owned : ∀ a, ∀ e ∈ w.plant.demands.look a, e.Owned k
  known : ∀ z c, w.ctx z = some c → k z = some c.cls
  postedOnce : ∀ z c, w.ctx z = some c → (c.posted.map Prod.fst).Nodup
  tally : ∀ z c, w.ctx z = some c → ∀ a p, (a, p) ∈ c.posted ↔ w.plant.Posts z a p

variable {k : ZoneId → Option ExecClass}

/-- A change of one list, the contexts kept, that keeps the entries of every executing zone. -/
theorem Works.Right.setDemands (h : w.Right k) {a : ActId} {l : List Demand} (once : (l.map Demand.orig).Nodup)
    (owned : ∀ e ∈ l, e.Owned k)
    (kept : ∀ z c, w.ctx z = some c → ∀ e : Demand, e.orig = .zone z → (e ∈ l ↔ e ∈ w.plant.demands.look a)) :
    (w.onPlant fun x => x.setDemands a l).Right k where
  once := h.once.setDemands once
  owned b e he := by
    rw [Works.onPlant_plant, Plant.setDemands_look] at he
    split at he
    · exact owned e he
    · exact h.owned b e he
  known := h.known
  postedOnce := h.postedOnce
  tally z c hc b p := by
    rw [h.tally z c hc, Works.onPlant_plant]
    unfold Plant.Posts
    rw [Plant.setDemands_look]
    split
    case isTrue e =>
      rw [e]
      refine exists_congr fun f => ?_
      constructor
      · exact fun ⟨hf, ho, hp⟩ => ⟨(kept z c hc f ho).mpr hf, ho, hp⟩
      · exact fun ⟨hf, ho, hp⟩ => ⟨(kept z c hc f ho).mp hf, ho, hp⟩
    case isFalse => rfl

theorem recordPosted_once (a : ActId) (p : Position) (l : List (ActId × Position)) (h : (l.map Prod.fst).Nodup) :
    ((recordPosted a p l).map Prod.fst).Nodup := by
  unfold recordPosted
  refine (((insertByKey_perm _ (a, p) _).map Prod.fst).nodup_iff).mpr (List.nodup_cons.mpr ⟨fun ha => ?_, ?_⟩)
  · obtain ⟨r, hr, e⟩ := List.mem_map.mp ha
    simpa [e] using (List.mem_filter.mp hr).2
  · exact h.sublist (List.filter_sublist.map _)

/-- A zone's entry placed and recorded. -/
theorem Works.Right.post (h : w.Right k) {z : ZoneId} {a : ActId} {p : Position} {g : Ctx → Ctx} {c : Ctx}
    (hc : w.ctx z = some c) (hg : (g c).cls = c.cls ∧ (g c).posted = recordPosted a p c.posted) :
    ((w.onPlant fun x => x.post order a ⟨c.cls.demand, .zone z, p⟩).modCtx z g).Right k := by
  have ctx : ((w.onPlant fun x => x.post order a ⟨c.cls.demand, .zone z, p⟩).modCtx z g).ctx z = some (g c) := by
    rw [Works.modCtx_ctx_same, Works.onPlant_ctx, hc, Option.map_some]
  have look (b : ActId) : (w.plant.post order a ⟨c.cls.demand, .zone z, p⟩).demands.look b
      = if b = a then placeDemand order ⟨c.cls.demand, .zone z, p⟩ (w.plant.demands.look a) else w.plant.demands.look b :=
    w.plant.setDemands_look b a _
  have cases_ctx {y : ZoneId} {d : Ctx}
      (hy : ((w.onPlant fun x => x.post order a ⟨c.cls.demand, .zone z, p⟩).modCtx z g).ctx y = some d) :
      y = z ∧ d = g c ∨ y ≠ z ∧ w.ctx y = some d := by
    by_cases e : y = z
    · subst e
      exact .inl ⟨rfl, Option.some.inj (hy.symm.trans ctx)⟩
    · rw [Works.modCtx_ctx_other _ _ _ _ e] at hy
      exact .inr ⟨e, hy⟩
  refine ⟨?_, fun b e he => ?_, fun y d hy => ?_, fun y d hy => ?_, fun y d hy b q => ?_⟩
  · rw [Works.modCtx_plant]
    exact h.once.setDemands (placeDemand_once _ _ _ (h.once a))
  · rw [Works.modCtx_plant, Works.onPlant_plant, look] at he
    split at he
    · obtain rfl | ⟨he, -⟩ := (mem_placeDemand_iff ..).mp he
      · exact ⟨c.cls, h.known z c hc, rfl⟩
      · exact h.owned a e he
    · exact h.owned b e he
  · obtain ⟨rfl, rfl⟩ | ⟨-, hy⟩ := cases_ctx hy
    · rw [hg.1]; exact h.known y c hc
    · exact h.known y d hy
  · obtain ⟨rfl, rfl⟩ | ⟨-, hy⟩ := cases_ctx hy
    · rw [hg.2]; exact recordPosted_once a p _ (h.postedOnce y c hc)
    · exact h.postedOnce y d hy
  · rw [Works.modCtx_plant, Works.onPlant_plant]
    unfold Plant.Posts
    rw [look]
    obtain ⟨rfl, rfl⟩ | ⟨hne, hy⟩ := cases_ctx hy
    · rw [hg.2, mem_recordPosted, h.tally y c hc]
      by_cases hb : b = a
      · subst hb
        simp only [if_true, mem_placeDemand_iff, ne_eq, not_true, and_false, or_false, Prod.mk.injEq, true_and]
        constructor
        · rintro rfl
          exact ⟨_, .inl rfl, rfl, rfl⟩
        · rintro ⟨e, rfl | ⟨-, hne⟩, ho, rfl⟩
          · rfl
          · exact absurd ho hne
      · simp [hb, Plant.Posts]
    · rw [h.tally y d hy]
      split
      case isTrue hb =>
        subst hb
        unfold Plant.Posts
        refine exists_congr fun e => ⟨fun ⟨he, ho, hp⟩ => ⟨(mem_placeDemand_iff ..).mpr (.inr ⟨he, ?_⟩), ho, hp⟩,
          fun ⟨he, ho, hp⟩ => ⟨?_, ho, hp⟩⟩
        · rw [ho]; simpa using hne
        · obtain rfl | ⟨he, -⟩ := (mem_placeDemand_iff ..).mp he
          · exact absurd (Originator.zone.inj ho).symm hne
          · exact he
      case isFalse => rfl

theorem Works.Goes.right (h : Works.Goes order w v) (hw : w.Right k) : v.Right k := by
  induction h with
  | refl => exact hw
  | trans _ _ ih ih' => exact ih' (ih hw)
  | tests w t => exact ⟨hw.once, hw.owned, hw.known, hw.postedOnce, hw.tally⟩
  | plant w x hx =>
    refine ⟨fun a => ?_, fun a => ?_, hw.known, hw.postedOnce, fun z c hc a p => ?_⟩
    · rw [hx.demands]; exact hw.once a
    · rw [hx.demands]; exact hw.owned a
    · rw [hw.tally z c hc, Plant.Posts, Plant.Posts, hx.demands]
  | ctx w y g hg =>
    have before (z : ZoneId) (d : Ctx) (hd : (w.modCtx y g).ctx z = some d) :
        ∃ c, w.ctx z = some c ∧ d.cls = c.cls ∧ d.posted = c.posted := by
      by_cases e : z = y
      · subst e
        rw [Works.modCtx_ctx_same] at hd
        obtain ⟨c, hc, rfl⟩ := Option.map_eq_some_iff.mp hd
        exact ⟨c, hc, hg c⟩
      · rw [Works.modCtx_ctx_other _ _ _ _ e] at hd
        exact ⟨d, hd, rfl, rfl⟩
    refine ⟨by rw [Works.modCtx_plant]; exact hw.once, by rw [Works.modCtx_plant]; exact hw.owned, fun z d hd => ?_,
      fun z d hd => ?_, fun z d hd => ?_⟩ <;> obtain ⟨c, hc, hcls, hposted⟩ := before z d hd
    · rw [hcls]; exact hw.known z c hc
    · rw [hposted]; exact hw.postedOnce z c hc
    · rw [hposted, Works.modCtx_plant]; exact hw.tally z c hc
  | post w z a p g c hc hp hg => exact hw.post hc hg
  | place w a d hd hp =>
    have foreign (z : ZoneId) : d.orig ≠ .zone z := fun e => by rw [e] at hd; exact hd
    refine hw.setDemands (placeDemand_once _ _ _ (hw.once a)) (fun e he => ?_) fun z c hc e he => ?_
    · obtain rfl | ⟨he, -⟩ := (mem_placeDemand_iff ..).mp he
      · exact Demand.owned_of_owns hd k
      · exact hw.owned a e he
    · have hne : e.orig ≠ d.orig := fun k => foreign z (k.symm.trans he)
      exact mem_placeDemand_other _ _ _ hne
  | drop w o a ho =>
    refine hw.setDemands (dropOriginator_once _ _ (hw.once a)) (fun e he => hw.owned a e (mem_dropOriginator.mp he).1)
      fun z c hc e he => ?_
    rw [mem_dropOriginator]
    refine and_iff_left fun k => ?_
    rw [ho z (k.symm.trans he)] at hc
    cases hc
  | reorder w a =>
    exact hw.setDemands (sortByKey_once _ _ (hw.once a)) (fun e he => hw.owned a e ((mem_sortByKey _).mp he))
      fun z c hc e he => mem_sortByKey _

/-! ### The order of the lists -/

/-- The list of channel `a` stands in the order of R47 under a fire order. -/
def Plant.InOrder (order : List ZoneId) (a : ActId) (x : Plant) : Prop :=
  (x.demands.look a).Pairwise fun d e => demandKey order d < demandKey order e

theorem Plant.InOrder.setDemands {x : Plant} {a b : ActId} (h : x.InOrder order b) {l : List Demand}
    (hl : b = a → l.Pairwise fun d e => demandKey order d < demandKey order e) : (x.setDemands a l).InOrder order b := by
  unfold Plant.InOrder
  rw [Plant.setDemands_look]
  split
  case isTrue e => exact hl e
  case isFalse => exact h

/-- An owned entry placed in an owned list. -/
theorem Works.Right.post_inOrder (h : w.Right k) (s : Seats order k) {a b : ActId} {d : Demand} (hd : d.Owned k)
    (hb : w.plant.InOrder order b) : (w.plant.post order a d).InOrder order b := by
  refine hb.setDemands fun e => ?_
  subst e
  exact placeDemand_pairwise _ _ _ hb fun e he => s.key_eq_iff (h.owned b e he) hd

/-- A list put in order stands in it (R53). -/
theorem Works.Right.reorder_inOrder (h : w.Right k) (s : Seats order k) (a : ActId) :
    (w.plant.reorder order a).InOrder order a := by
  unfold Plant.InOrder Plant.reorder
  rw [Plant.setDemands_look, if_pos rfl]
  have sorted := sortByKey_pairwise (demandKey order) (w.plant.demands.look a)
  have apart := List.pairwise_map.mp (sortByKey_once (w.plant.demands.look a) (demandKey order) (h.once a))
  refine (sorted.and apart).imp_of_mem fun {d e} hd he ⟨hle, hne⟩ => lt_of_le_of_ne hle fun same => hne ?_
  exact (s.key_eq_iff (h.owned a d ((mem_sortByKey _).mp hd)) (h.owned a e ((mem_sortByKey _).mp he))).mp same

/-- A list in order stays in order (R47). -/
theorem Works.Goes.inOrder (h : Works.Goes order w v) (s : Seats order k) (hw : w.Right k) {b : ActId}
    (hb : w.plant.InOrder order b) : v.plant.InOrder order b := by
  induction h with
  | refl | tests => exact hb
  | trans h _ ih ih' => exact ih' (h.right hw) (ih hw hb)
  | plant w x hx =>
    unfold Plant.InOrder
    rw [hx.demands]
    exact hb
  | ctx => rwa [Works.modCtx_plant]
  | post w z a p g c hc hp hg =>
    rw [Works.modCtx_plant]
    exact hw.post_inOrder s ⟨c.cls, hw.known z c hc, rfl⟩ hb
  | place w a d hd hp => exact hw.post_inOrder s (Demand.owned_of_owns hd k) hb
  | drop w o a ho =>
    exact hb.setDemands fun e => by subst e; exact List.Pairwise.filter _ hb
  | reorder w a =>
    by_cases e : b = a
    · subst e; exact hw.reorder_inOrder s b
    · exact hb.setDemands fun k => absurd k e

end

end Sys2Proof.Machine
end

section
/-!
SUPPORT. The demand lists of the works under a fire order, while zones begin and end their execution and the fire order changes.
-/

namespace Sys2Proof.Machine

/-! ### The order under another fire order -/

/-- Two zones stand in a part of a fire order as in the whole. -/
theorem idxOf_lt_iff_of_sublist {l l' : List ZoneId} (h : l.Sublist l') (once : l'.Nodup) {y z : ZoneId} (hy : y ∈ l)
    (hz : z ∈ l) : l.idxOf y < l.idxOf z ↔ l'.idxOf y < l'.idxOf z := by
  induction h with
  | slnil => cases hy
  | @cons l l' a h ih =>
    obtain ⟨ha, once⟩ := List.nodup_cons.mp once
    have ny : a ≠ y := fun e => ha (h.subset (e ▸ hy))
    have nz : a ≠ z := fun e => ha (h.subset (e ▸ hz))
    rw [List.idxOf_cons_ne _ ny, List.idxOf_cons_ne _ nz, ih once hy hz]
    omega
  | @cons_cons l l' a h ih =>
    obtain ⟨ha, once⟩ := List.nodup_cons.mp once
    by_cases ey : a = y <;> by_cases ez : a = z
    · subst ey; subst ez; simp
    · subst ey; simp [List.idxOf_cons_ne _ ez]
    · subst ez; simp
    · rw [List.idxOf_cons_ne _ ey, List.idxOf_cons_ne _ ez, List.idxOf_cons_ne _ ey, List.idxOf_cons_ne _ ez, Nat.succ_lt_succ_iff,
        Nat.succ_lt_succ_iff]
      exact ih once ((List.mem_cons.mp hy).resolve_left (Ne.symm ey)) ((List.mem_cons.mp hz).resolve_left (Ne.symm ez))

section
variable {order order' : List ZoneId} {k : ZoneId → Option ExecClass}

/-- Under two fire orders that seat its zone an entry of FIRE stands at its zone's places, and every other entry at one place ahead
of them or behind (R47). -/
theorem Seats.keys (s : Seats order k) (s' : Seats order' k) {e : Demand} (he : e.Owned k) :
    (∃ z ∈ order, demandKey order e = 1 + order.idxOf z ∧ demandKey order' e = 1 + order'.idxOf z
        ∧ order.idxOf z < 48 ∧ order'.idxOf z < 48)
      ∨ demandKey order e = demandKey order' e ∧ (demandKey order e = 0 ∨ 1000 ≤ demandKey order e) := by
  cases ho : e.orig with
  | ff => exact .inr ⟨(he.key_ff ho).trans (he.key_ff ho).symm, .inl (he.key_ff ho)⟩
  | bl => exact .inr ⟨(he.key_bl ho).trans (he.key_bl ho).symm, .inr (by rw [he.key_bl ho]; omega)⟩
  | zone z =>
    obtain ⟨hz, key, small⟩ | ⟨hz, key⟩ := s.zone_cases he ho <;>
      obtain ⟨hz', key', small'⟩ | ⟨hz', key'⟩ := s'.zone_cases he ho
    · exact .inl ⟨z, s.fire z hz, key, key', small, small'⟩
    · rw [hz] at hz'; cases hz'
    · rw [hz] at hz'; cases hz'
    · exact .inr ⟨key.trans key'.symm, .inr key.ge⟩

theorem Seats.key_lt_iff (s : Seats order k) (s' : Seats order' k) (sub : order.Sublist order') {d e : Demand} (hd : d.Owned k)
    (he : e.Owned k) : demandKey order d < demandKey order e ↔ demandKey order' d < demandKey order' e := by
  obtain ⟨y, hy, kd, kd', ld, ld'⟩ | ⟨kd, ld⟩ := s.keys s' hd <;>
    obtain ⟨z, hz, ke, ke', le, le'⟩ | ⟨ke, le⟩ := s.keys s' he
  · rw [kd, ke, kd', ke', Nat.add_lt_add_iff_left, Nat.add_lt_add_iff_left]
    exact idxOf_lt_iff_of_sublist sub s'.once hy hz
  · omega
  · omega
  · rw [kd, ke]

/-- A list of owned entries stands in order under a part of a fire order, where that part seats its zones, exactly where it does
under the whole. -/
theorem Seats.inOrder_iff (s : Seats order k) (s' : Seats order' k) (sub : order.Sublist order') {x : Plant} {a : ActId}
    (h : ∀ e ∈ x.demands.look a, e.Owned k) : x.InOrder order a ↔ x.InOrder order' a := by
  constructor
  · exact fun o => o.imp_of_mem fun hd he lt => (s.key_lt_iff s' sub (h _ hd) (h _ he)).mp lt
  · exact fun o => o.imp_of_mem fun hd he lt => (s.key_lt_iff s' sub (h _ hd) (h _ he)).mpr lt

end

/-! ### Lists in their places -/

/-- The class of each zone's context. -/
def Works.classes (w : Works) (z : ZoneId) : Option ExecClass := (w.ctx z).map Ctx.cls

/-- The demand lists agree with the contexts and stand in order under a fire order that seats every zone executing. -/
structure Works.InPlace (order : List ZoneId) (w : Works) : Prop where
  right : w.Right w.classes
  seats : Seats order w.classes
  ordered : ∀ a, w.plant.InOrder order a

section
variable {order : List ZoneId} {w v : Works}

theorem Works.Goes.classes_eq (h : Works.Goes order w v) : v.classes = w.classes := funext h.classes.1

theorem Works.Goes.inPlace (h : Works.Goes order w v) (hw : w.InPlace order) : v.InPlace order where
  right := h.classes_eq ▸ h.right hw.right
  seats := h.classes_eq ▸ hw.seats
  ordered a := h.inOrder hw.seats hw.right (hw.ordered a)

/-- The fire order gains or loses zones that do not execute. -/
theorem Works.InPlace.resize (h : w.InPlace order) {order' : List ZoneId} (s : Seats order' w.classes)
    (sub : order.Sublist order' ∨ order'.Sublist order) : w.InPlace order' where
  right := h.right
  seats := s
  ordered a := by
    obtain sub | sub := sub
    · exact (h.seats.inOrder_iff s sub (h.right.owned a)).mp (h.ordered a)
    · exact (s.inOrder_iff h.seats sub (h.right.owned a)).mpr (h.ordered a)

/-- A zone that does not execute has no entry. -/
theorem Works.Right.not_names (h : w.Right w.classes) {z : ZoneId} (hz : w.ctx z = none) (a : ActId) :
    ∀ e ∈ w.plant.demands.look a, e.orig ≠ .zone z := by
  intro e he ho
  have owned := h.owned a e he
  unfold Demand.Owned at owned
  rw [ho] at owned
  obtain ⟨c, hc, -⟩ := owned
  simp [Works.classes, hz] at hc

theorem Works.Right.covers (h : w.Right w.classes) (z : ZoneId) : w.Covers z := by
  rintro a ⟨e, he, ho⟩
  have owned := h.owned a e he
  unfold Demand.Owned at owned
  rw [ho] at owned
  obtain ⟨_, hc, -⟩ := owned
  obtain ⟨c, hz, -⟩ := Option.map_eq_some_iff.mp hc
  refine ⟨c, hz, (c.holds_iff a).mpr ⟨(a, e.pos), ?_, rfl⟩⟩
  exact (h.tally z c hz a e.pos).mpr ⟨e, he, ho, rfl⟩

/-- What is known of a zone without an entry may change. -/
theorem Demand.Owned.update {k : ZoneId → Option ExecClass} {e : Demand} (h : e.Owned k) {z : ZoneId} (hz : e.orig ≠ .zone z)
    (c : Option ExecClass) : e.Owned (Function.update k z c) := by
  unfold Demand.Owned at h ⊢
  cases ho : e.orig with
  | zone y =>
    rw [ho] at h
    have hy : y ≠ z := fun e => hz (ho.trans (congrArg _ e))
    simpa only [Function.update_of_ne hy] using h
  | _ => rw [ho] at h; exact h

theorem Works.classes_setCtx (z : ZoneId) (c : Option Ctx) :
    (w.setCtx z c).classes = Function.update w.classes z (c.map Ctx.cls) := by
  funext y
  by_cases e : y = z
  · subst e; simp [Works.classes]
  · simp [Works.classes, e]

/-! ### The beginning of execution -/

/-- A zone that does not execute takes a context with nothing posted. -/
theorem Works.Right.setCtx (h : w.Right w.classes) {z : ZoneId} (hz : w.ctx z = none) {c : Ctx} (hc : c.posted = []) :
    (w.setCtx z (some c)).Right (w.setCtx z (some c)).classes := by
  have cases_ctx {y : ZoneId} {d : Ctx} (hy : (w.setCtx z (some c)).ctx y = some d) :
      y = z ∧ d = c ∨ y ≠ z ∧ w.ctx y = some d := by
    by_cases e : y = z
    · subst e
      rw [Works.setCtx_ctx_same, Option.some_inj] at hy
      exact .inl ⟨rfl, hy.symm⟩
    · rw [Works.setCtx_ctx_other _ _ _ _ e] at hy
      exact .inr ⟨e, hy⟩
  refine ⟨h.once, fun a e he => ?_, fun y d hy => ?_, fun y d hy => ?_, fun y d hy a p => ?_⟩
  · rw [Works.classes_setCtx]
    exact (h.owned a e he).update (h.not_names hz a e he) _
  · simp [Works.classes, hy]
  · obtain ⟨-, rfl⟩ | ⟨-, hy⟩ := cases_ctx hy
    · simp [hc]
    · exact h.postedOnce y d hy
  · obtain ⟨rfl, rfl⟩ | ⟨-, hy⟩ := cases_ctx hy
    · rw [hc]
      constructor
      · exact fun k => by cases k
      · exact fun ⟨e, he, ho, _⟩ => absurd ho (h.not_names hz a e he)
    · exact h.tally y d hy a p

/-- A plan begins from a context with nothing posted (R20). -/
theorem Works.begin_goes (m : Pmc) (order : List ZoneId) (z : ZoneId) (cls : ExecClass) (b : Option BlockId) (w : Works) :
    ∃ c : Ctx, c.cls = cls ∧ c.posted = [] ∧ Works.Goes order (w.setCtx z (some c)) (w.begin m order z cls b) := by
  have entered (v : Works) : Works.Goes order v ((v.enterStep m order z 1).settle m order) :=
    (v.enterStep_goes m order z 1).trans (Works.settle_goes ..)
  cases hp : m.choosePlan b with
  | own p => exact ⟨_, rfl, rfl, w.begin_own m order z cls b hp ▸ entered _⟩
  | fallback => exact ⟨_, rfl, rfl, w.begin_fallback m order z cls b hp ▸ (Works.report_goes ..).trans (entered _)⟩
  | none =>
    refine ⟨Ctx.begun .none 0 cls, rfl, rfl, ?_⟩
    rw [Works.begin, hp]
    exact (Works.report_goes ..).trans (entered _)

/-- The lists stay in their places where a zone that does not execute begins its plan. -/
theorem Works.InPlace.begin (h : w.InPlace order) {m : Pmc} {z : ZoneId} {cls : ExecClass} {b : Option BlockId}
    (hz : w.ctx z = none) (s : Seats order (Function.update w.classes z (some cls))) :
    (w.begin m order z cls b).InPlace order ∧ (w.begin m order z cls b).classes = Function.update w.classes z (some cls) := by
  obtain ⟨c, rfl, hp, goes⟩ := w.begin_goes m order z cls b
  have classes : (w.setCtx z (some c)).classes = Function.update w.classes z (some c.cls) := w.classes_setCtx z (some c)
  exact ⟨goes.inPlace ⟨h.right.setCtx hz hp, classes ▸ s, h.ordered⟩, goes.classes_eq.trans classes⟩

/-! ### The end of execution -/

/-- A zone's withdrawal takes its context away, and its entries one by one (R42). -/
theorem Works.withdraw_goes (m : Pmc) (order : List ZoneId) (z : ZoneId) (w : Works) :
    Works.Goes order (w.setCtx z none) (w.withdraw m order z) := by
  unfold Works.withdraw
  split
  case h_1 hc =>
    rw [w.setCtx_none_of_ctx z hc]
    exact .refl w
  case h_2 c hc =>
    have gone (l : List (ActId × Position)) (v : Works) (hv : v.ctx z = none) :
        Works.Goes order v (l.foldl (fun w r => (w.onPlant fun x => x.drop (.zone z) r.1).settle m order) v) := by
      induction l generalizing v with
      | nil => exact .refl v
      | cons r l ih =>
        have step : Works.Goes order v ((v.onPlant fun x => x.drop (.zone z) r.1).settle m order) :=
          (Works.Goes.drop v (.zone z) r.1 fun y e => Originator.zone.inj e ▸ hv).trans (Works.settle_goes ..)
        exact step.trans (ih _ (step.ctx_eq_none hv))
    exact gone _ _ (by simp)

/-- The lists stay in their places where a zone ends its execution. -/
theorem Works.InPlace.withdraw (h : w.InPlace order) (m : Pmc) (z : ZoneId) :
    (w.withdraw m order z).InPlace order ∧ (w.withdraw m order z).classes = Function.update w.classes z none := by
  have goes := w.withdraw_goes m order z
  have classes : (w.withdraw m order z).classes = Function.update w.classes z none :=
    goes.classes_eq.trans (w.classes_setCtx z none)
  have stripped : (w.setCtx z none).Right w.classes := by
    have kept {y : ZoneId} {d : Ctx} (hy : (w.setCtx z none).ctx y = some d) : w.ctx y = some d := by
      by_cases e : y = z
      · subst e; simp at hy
      · rwa [Works.setCtx_ctx_other _ _ _ _ e] at hy
    exact ⟨h.right.once, h.right.owned, fun y d hy => h.right.known y d (kept hy), fun y d hy => h.right.postedOnce y d (kept hy),
      fun y d hy => h.right.tally y d (kept hy)⟩
  have withdrawn := goes.right stripped
  have gone (a : ActId) : ∀ e ∈ (w.withdraw m order z).plant.demands.look a, e.orig ≠ .zone z := fun e he ho =>
    (w.withdraw_covers m order z (h.right.covers z)).not_names (w.withdraw_ctx_same m order z) a ⟨e, he, ho⟩
  refine ⟨⟨⟨withdrawn.once, fun a e he => ?_, fun y d hy => ?_, withdrawn.postedOnce, withdrawn.tally⟩, ?_,
    fun a => ?_⟩, classes⟩
  · rw [classes]
    exact (withdrawn.owned a e he).update (gone a e he) none
  · simp [Works.classes, hy]
  · rw [classes]
    have kept {y : ZoneId} {c : ExecClass} (hy : Function.update w.classes z none y = some c) : w.classes y = some c := by
      by_cases e : y = z
      · subst e; simp at hy
      · rwa [Function.update_of_ne e] at hy
    exact ⟨h.seats.once, fun y hy => h.seats.fire y (kept hy), fun x y hx hy => h.seats.test x y (kept hx) (kept hy)⟩
  · exact goes.inOrder h.seats stripped (h.ordered a)

/-! ### A new order -/

/-- After the FIRE entries have moved to a new fire order every list stands in it (R53). -/
theorem Works.InPlace.reorder (h : w.InPlace order) (m : Pmc) {order' : List ZoneId} (s : Seats order' w.classes) :
    (w.reorder m order').InPlace order' := by
  have goes := w.reorder_goes m order'
  refine ⟨by rw [goes.classes_eq]; exact goes.right h.right, by rw [goes.classes_eq]; exact s, fun a => ?_⟩
  have sorted (l : List ActId) (v : Works) (hv : v.Right w.classes) (ha : a ∈ l ∨ v.plant.InOrder order' a) :
      (l.foldl (fun w b => (w.onPlant fun x => x.reorder order' b).settle m order') v).plant.InOrder order' a := by
    induction l generalizing v with
    | nil => exact ha.resolve_left (by simp)
    | cons b l ih =>
      have step : Works.Goes order' v ((v.onPlant fun x => x.reorder order' b).settle m order') :=
        (Works.Goes.reorder v b).trans (Works.settle_goes ..)
      refine ih _ (step.right hv) ?_
      obtain ha | ha := ha
      · obtain rfl | ha := List.mem_cons.mp ha
        · exact .inr ((Works.settle_goes m order' _).inOrder s ((Works.Goes.reorder v a).right hv) (hv.reorder_inOrder s a))
        · exact .inl ha
      · exact .inr (step.inOrder s hv ha)
  exact sorted allActs w h.right (.inl (List.mem_finRange a))

end

end Sys2Proof.Machine
end

section
/-!
SUPPORT. Every operation of the Incident Controller and the Test Sequencer keeps the demand lists in agreement with the zones that
execute, and in the order of the fire order as it stands.
-/

namespace Sys2Proof.Machine

/-! ### The zones that execute -/

/-- What a zone executes for, by the fire order and the zone under test (R2, R116). -/
def dutyOf (order : List ZoneId) (test : Option ZoneId) (z : ZoneId) : Option ExecClass :=
  if z ∈ order then some .fire else if test = some z then some .test else none

section
variable {order order' : List ZoneId} {test : Option ZoneId} {z : ZoneId}

theorem dutyOf_eq_fire : dutyOf order test z = some .fire ↔ z ∈ order := by
  unfold dutyOf
  split
  case isTrue h => simp [h]
  case isFalse h => split <;> simp [h]

theorem dutyOf_eq_test : dutyOf order test z = some .test ↔ z ∉ order ∧ test = some z := by
  unfold dutyOf
  split
  case isTrue h => simp [h]
  case isFalse h => split <;> simp [*]

theorem dutyOf_eq_none (hz : z ∉ order) (ht : test ≠ some z) : dutyOf order test z = none := by
  unfold dutyOf
  rw [if_neg hz, if_neg ht]

theorem dutyOf_congr (h : ∀ y, y ∈ order' ↔ y ∈ order) : dutyOf order' test = dutyOf order test := by
  funext y
  unfold dutyOf
  simp only [h]

/-- The zones of a fire order have their places in it. -/
theorem seats_dutyOf (once : order.Nodup) : Seats order (dutyOf order test) where
  once := once
  fire y := dutyOf_eq_fire.mp
  test y z hy hz := by
    obtain ⟨-, hy⟩ := dutyOf_eq_test.mp hy
    obtain ⟨-, hz⟩ := dutyOf_eq_test.mp hz
    exact Option.some.inj (hy.symm.trans hz)

/-- And in every longer one. -/
theorem Seats.mono {k : ZoneId → Option ExecClass} (s : Seats order k) (once : order'.Nodup) (sub : order ⊆ order') :
    Seats order' k :=
  ⟨once, fun z hz => sub (s.fire z hz), s.test⟩

theorem update_dutyOf_fire (h : ∀ y, y ∈ order' ↔ y = z ∨ y ∈ order) :
    Function.update (dutyOf order test) z (some .fire) = dutyOf order' test := by
  funext y
  by_cases e : y = z
  · subst e
    rw [Function.update_self, dutyOf, if_pos ((h y).mpr (.inl rfl))]
  · rw [Function.update_of_ne e]
    simp only [dutyOf, h, e, false_or]

theorem update_dutyOf_none (h : ∀ y, y ∈ order' ↔ y ∈ order ∧ y ≠ z) (ht : test ≠ some z) :
    Function.update (dutyOf order test) z none = dutyOf order' test := by
  funext y
  by_cases e : y = z
  · subst e
    rw [Function.update_self, dutyOf_eq_none (fun k => ((h y).mp k).2 rfl) ht]
  · rw [Function.update_of_ne e]
    simp only [dutyOf, h, e, ne_eq, not_false_eq_true, and_true]

theorem update_dutyOf_begins_test (hz : z ∉ order) :
    Function.update (dutyOf order none) z (some .test) = dutyOf order (some z) := by
  funext y
  by_cases e : y = z
  · subst e
    rw [Function.update_self, dutyOf, if_neg hz, if_pos rfl]
  · rw [Function.update_of_ne e]
    simp only [dutyOf, Option.some.injEq, Ne.symm e, reduceCtorEq]

theorem update_dutyOf_ends_test (hz : z ∉ order) :
    Function.update (dutyOf order (some z)) z none = dutyOf order none := by
  rw [← update_dutyOf_begins_test hz, Function.update_idem, Function.update_eq_self_iff]
  exact (dutyOf_eq_none hz (by simp)).symm

end

/-! ### A site whose demand lists are right -/

/-- The zone under test. -/
def Site.tested (x : Site) : Option ZoneId := x.works.ts.test.map Test.zone

/-- The zones agree, each executes for the class of its duty, and the demand lists stand in their places. -/
structure Site.Fair (x : Site) : Prop where
  whole : x.Whole
  duty : x.works.classes = dutyOf x.ic.fireOrder x.tested
  inPlace : x.works.InPlace x.ic.fireOrder

/-- From `w` to `v` the works have gone on, zones beginning and ending their execution and the fire order changing. -/
inductive Works.Proceeds : Works → Works → Prop
  | refl (w : Works) : Proceeds w w
  | trans {u v w : Works} (h : Proceeds u v) (i : Proceeds v w) : Proceeds u w
  | goes {order : List ZoneId} {w v : Works} (h : Works.Goes order w v) : Proceeds w v
  | ctx (w : Works) (z : ZoneId) (c : Option Ctx) : Proceeds w (w.setCtx z c)
  | tests (w : Works) (t : TestSeq) : Proceeds w { w with ts := t }

theorem Works.Proceeds.targetsFollow {w v : Works} (h : Works.Proceeds w v) (hw : w.plant.TargetsFollow) :
    v.plant.TargetsFollow := by
  induction h with
  | refl | ctx | tests => exact hw
  | trans _ _ ih ih' => exact ih' (ih hw)
  | goes h => exact h.targetsFollow hw

theorem Works.Proceeds.oneEach {w v : Works} (h : Works.Proceeds w v) (hw : w.plant.OneEach) : v.plant.OneEach := by
  induction h with
  | refl | ctx | tests => exact hw
  | trans _ _ ih ih' => exact ih' (ih hw)
  | goes h => exact h.oneEach hw

/-- A change of the site keeps the demand lists right. -/
structure Site.Resolves (x y : Site) : Prop where
  proceeds : Works.Proceeds x.works y.works
  fair : x.Fair → y.Fair

theorem Site.Resolves.refl (x : Site) : x.Resolves x := ⟨.refl _, id⟩

theorem Site.Resolves.trans {x y z : Site} (h : x.Resolves y) (i : y.Resolves z) : x.Resolves z :=
  ⟨h.proceeds.trans i.proceeds, fun f => i.fair (h.fair f)⟩

theorem Site.Fair.ctx_eq_none {x : Site} (h : x.Fair) {z : ZoneId} (hz : z ∉ x.ic.fireOrder) (ht : x.tested ≠ some z) :
    x.works.ctx z = none := by
  have none : x.works.classes z = none := by rw [h.duty]; exact dutyOf_eq_none hz ht
  simpa [Works.classes] using none

/-- A change that keeps the agreement of the zones and the fire order, while the works go on under it. -/
theorem Site.Keeps.resolves {x y : Site} (h : x.Keeps y) (order : y.ic.fireOrder = x.ic.fireOrder)
    (goes : Works.Goes x.ic.fireOrder x.works y.works) : x.Resolves y where
  proceeds := .goes goes
  fair f := by
    have tested : y.tested = x.tested := goes.classes.2
    refine ⟨(h f.whole).1, ?_, ?_⟩
    · rw [goes.classes_eq, order, tested]; exact f.duty
    · rw [order]; exact goes.inPlace f.inPlace

theorem Site.Minor.resolves {x y : Site} (h : x.Minor y) (goes : Works.Goes x.ic.fireOrder x.works y.works) : x.Resolves y :=
  h.keeps.resolves h.order goes

/-- The works go on under the fire order as it stands. -/
theorem Works.Goes.resolves {x : Site} {v : Works} (h : Works.Goes x.ic.fireOrder x.works v) :
    x.Resolves { x with works := v } :=
  (Site.minor_of_works (x := x) (y := { x with works := v }) rfl h.ctx_isSome h.classes.2).resolves h

section
variable (m : Pmc) (x : Site) (y z : ZoneId) (o : Origin) (c : ZoneCause) (st : ZoneState) (head : Option ZoneId)

theorem Site.reportZone_resolves : x.Resolves (x.reportZone z c) :=
  (x.reportZone_minor z c).resolves (Works.report_goes ..)

/-! ### Admission and re-evaluation -/

theorem insertByKey_sublist {α : Type} (key : α → Nat) (a : α) (l : List α) : l.Sublist (insertByKey key a l) := by
  induction l with
  | nil => exact List.nil_sublist _
  | cons b l ih =>
    unfold insertByKey
    split
    · exact List.sublist_cons_self a _
    · exact ih.cons_cons b

theorem Incident.enroll_sublist (hz : z ∉ x.ic.fireOrder) : x.ic.fireOrder.Sublist (x.ic.enroll z o).fireOrder := by
  have kept : x.ic.fireOrder.filter (· != z) = x.ic.fireOrder :=
    List.filter_eq_self.mpr fun a ha => by simpa using fun e : a = z => hz (e ▸ ha)
  refine .trans ?_ (insertByKey_sublist _ z _)
  simp [kept]

theorem Site.becomeActive_proceeds : Works.Proceeds x.works (x.becomeActive m z o c).works := by
  obtain ⟨k, -, -, goes⟩ := ({ x with ic := x.ic.enroll z o }.reportZone z c).works.begin_goes m (x.ic.enroll z o).fireOrder z
    .fire ((x.ic.enroll z o).config z).planBlock
  rw [Site.becomeActive_works]
  exact ((Works.Proceeds.goes (Works.report_goes [] x.works _ _ _ _)).trans (.ctx _ z (some k))).trans (.goes goes)

/-- A zone outside the fire order and not under test becomes ACTIVE (R7, R13, R17, R20). -/
theorem Site.becomeActive_resolves (h : x.Fair → z ∉ x.ic.fireOrder ∧ x.tested ≠ some z) :
    x.Resolves (x.becomeActive m z o c) where
  proceeds := x.becomeActive_proceeds m z o c
  fair f := by
    obtain ⟨hz, ht⟩ := h f
    have whole := (x.becomeActive_keeps m z o c ht f.whole).1
    have once : (x.ic.enroll z o).fireOrder.Nodup := whole.sound.orderOnce
    have sub := Incident.enroll_sublist x z o hz
    have reported : ({ x with ic := x.ic.enroll z o }.reportZone z c).works.InPlace x.ic.fireOrder :=
      (Works.report_goes ..).inPlace f.inPlace
    have classes : ({ x with ic := x.ic.enroll z o }.reportZone z c).works.classes = dutyOf x.ic.fireOrder x.tested := f.duty
    have widened := reported.resize (order' := (x.ic.enroll z o).fireOrder)
      (classes ▸ (seats_dutyOf f.whole.sound.orderOnce).mono once sub.subset) (.inl sub)
    have duty := update_dutyOf_fire (test := x.tested) fun y => x.ic.mem_enlist y z o
    obtain ⟨inPlace, begun⟩ := widened.begin (m := m) (b := ((x.ic.enroll z o).config z).planBlock) (f.ctx_eq_none hz ht)
      (s := by rw [classes, duty]; exact seats_dutyOf once)
    refine ⟨whole, ?_, ?_⟩
    · rw [Site.becomeActive_works, begun, classes, duty]
      exact congrArg _ (x.becomeActive_stands m z o c).test.symm
    · rw [Site.becomeActive_works]
      exact inPlace

theorem Site.startIncident_resolves : x.Resolves (x.startIncident m) := by
  refine (x.startIncident_keeps m).resolves (by rw [Site.startIncident_ic]) ?_
  rw [Site.startIncident_works]
  exact Works.withdrawNormals_goes ..

theorem Site.lockOut_resolves (h : x.Fair → (x.zone z).state.inFire = false ∧ (x.zone z).state ≠ .testing) :
    x.Resolves (x.lockOut z c) where
  proceeds := .goes (Works.report_goes [] ..)
  fair f := ((x.lockOut_keeps z c (h f).1 (h f).2).resolves rfl (Works.report_goes ..)).fair f

theorem Site.reAdmit_resolves (h : x.Fair → z ∉ x.ic.fireOrder ∧ x.tested ≠ some z) : x.Resolves (x.reAdmit m z) := by
  obtain ⟨-, e⟩ | ⟨-, e⟩ := x.reAdmit_cases m z <;> rw [e]
  · exact x.becomeActive_resolves m z _ _ h
  · exact .refl x

theorem Site.reAdmits_proceed (l : List ZoneId) : Works.Proceeds x.works (l.foldl (Site.reAdmit m) x).works := by
  induction l generalizing x with
  | nil => exact .refl _
  | cons z l ih => exact .trans (by
      obtain ⟨-, e⟩ | ⟨-, e⟩ := x.reAdmit_cases m z <;> rw [e]
      · exact x.becomeActive_proceeds m z _ _
      · exact .refl _) (ih _)

/-- A walk of zones that are outside the fire order and not under test (R17). -/
theorem Site.reAdmits_fair (l : List ZoneId) (once : l.Nodup) (h : ∀ z ∈ l, z ∉ x.ic.fireOrder ∧ x.tested ≠ some z)
    (f : x.Fair) : (l.foldl (Site.reAdmit m) x).Fair := by
  induction l generalizing x with
  | nil => exact f
  | cons z l ih =>
    obtain ⟨hz, once⟩ := List.nodup_cons.mp once
    refine ih _ once (fun y hy => ?_) ((x.reAdmit_resolves m z fun _ => h z List.mem_cons_self).fair f)
    obtain ⟨out, untested⟩ := h y (List.mem_cons_of_mem _ hy)
    have ne : y ≠ z := fun e => hz (e ▸ hy)
    refine ⟨?_, by rw [Site.tested, (x.reAdmit_stands m z).test]; exact untested⟩
    obtain ⟨-, e⟩ | ⟨-, e⟩ := x.reAdmit_cases m z <;> rw [e]
    · exact fun k => ((x.ic.mem_enlist y z _).mp k).elim ne out
    · exact out

theorem Site.reEvaluate_resolves : x.Resolves (x.reEvaluate m) where
  proceeds := x.reAdmits_proceed m _
  fair f := x.reAdmits_fair m _ f.whole.sound.lockedOnce (fun z hz => ⟨fun k => f.whole.sound.not_locked k hz,
    f.whole.not_tested (by rw [f.whole.locked_state hz]; simp)⟩) f

/-- The rank counter returns to 0 with an emptied fire order (R19). -/
theorem Site.restart_resolves (h : x.ic.fireOrder = []) : x.Resolves { x with ic := { x.ic with rank := 0 } } := by
  refine Site.Keeps.resolves (fun w => ?_) rfl (.refl _)
  obtain ⟨sound, sorted⟩ := x.ic.restart_keeps h w.sound
  exact ⟨⟨sound, fun a => ⟨(w.agrees a).executing, (w.agrees a).testing⟩⟩, sorted⟩

theorem Site.afterOrder_resolves : x.Resolves (x.afterOrder m head) := by
  unfold Site.afterOrder
  split
  case isTrue e => exact (x.restart_resolves (List.isEmpty_iff.mp e)).trans (Site.reEvaluate_resolves m _)
  case isFalse =>
    split
    · exact .refl x
    · exact x.reEvaluate_resolves m

/-- The admission rule for a zone that does not execute (R7). -/
theorem Site.takeIn_resolves (h : x.Fair → (x.zone z).state.inFire = false ∧ (x.zone z).state ≠ .testing) :
    x.Resolves (x.takeIn m z c) := by
  have active := x.becomeActive_resolves m z .alarm c fun f =>
    ⟨f.whole.sound.not_mem (h f).1, f.whole.not_tested (h f).2⟩
  obtain ⟨-, e⟩ | ⟨-, -, e⟩ | ⟨-, -, e⟩ := x.takeIn_cases m z c <;> rw [e]
  · exact active.trans (Site.startIncident_resolves m _)
  · exact active
  · exact x.lockOut_resolves z c h

/-! ### Departure -/

/-- A zone that is not under test leaves the lists and ends its execution (R11, R14, R42). -/
theorem Site.depart_resolves (hst : st = .normal ∨ st = .heldOff) (h : x.Fair → x.tested ≠ some z) :
    x.Resolves (x.depart m z st c) where
  proceeds := ((Works.Proceeds.goes (Works.report_goes [] x.works _ _ _ _)).trans (.ctx _ z none)).trans
    (.goes (Works.withdraw_goes m x.ic.fireOrder z _))
  fair f := by
    have whole := (x.depart_keeps m z c st hst (h f) f.whole).1
    have once : (x.ic.remove z st).fireOrder.Nodup := whole.sound.orderOnce
    have reported : ({ x with ic := x.ic.remove z st }.reportZone z c).works.InPlace x.ic.fireOrder :=
      (Works.report_goes ..).inPlace f.inPlace
    have classes : ({ x with ic := x.ic.remove z st }.reportZone z c).works.classes = dutyOf x.ic.fireOrder x.tested := f.duty
    have duty := update_dutyOf_none (order' := (x.ic.remove z st).fireOrder) (order := x.ic.fireOrder) (fun y => by
      simp [Incident.remove]) (h f)
    obtain ⟨inPlace, ended⟩ := reported.withdraw m z
    have ended : (x.depart m z st c).works.classes = dutyOf (x.ic.remove z st).fireOrder x.tested := by
      rw [← duty, ← classes]; exact ended
    have seats : Seats (x.ic.remove z st).fireOrder (x.depart m z st c).works.classes := ended ▸ seats_dutyOf once
    refine ⟨whole, ?_, inPlace.resize seats (.inr List.filter_sublist)⟩
    rw [ended]
    exact congrArg _ (x.depart_stands m z c st).test.symm

theorem Site.leave_resolves (hst : st = .normal ∨ st = .heldOff) (h : x.Fair → x.tested ≠ some z) :
    x.Resolves (x.leave m z st c) := by
  obtain ⟨-, e⟩ | ⟨-, e⟩ := x.leave_cases m z c st <;> rw [e]
  · exact (x.depart_resolves m z c st hst h).trans (Site.afterOrder_resolves m _ _)
  · exact x.depart_resolves m z c st hst h

/-! ### A new place in the fire order -/

/-- A zone of the fire order takes a new place in it, and the FIRE entries follow (R53). -/
theorem Site.move_resolves {ic : Incident} (hk : x.Keeps (Site.move m z c { x with ic := ic }))
    (order : ic.fireOrder = x.ic.fireOrder) (hz : x.Fair → z ∈ x.ic.fireOrder) :
    x.Resolves (Site.move m z c { x with ic := ic }) where
  proceeds := by
    rw [Site.move_works]
    exact (Works.Proceeds.goes (Works.report_goes [] x.works _ _ _ _)).trans (.goes (Works.reorder_goes ..))
  fair f := by
    have whole := (hk f.whole).1
    have members (y : ZoneId) : y ∈ (ic.place z).fireOrder ↔ y ∈ x.ic.fireOrder := by
      rw [Incident.mem_place, order]
      exact or_iff_right_of_imp fun e => e ▸ hz f
    have reported : ({ x with ic := ic.place z }.reportZone z c).works.InPlace x.ic.fireOrder :=
      (Works.report_goes ..).inPlace f.inPlace
    have classes : ({ x with ic := ic.place z }.reportZone z c).works.classes = dutyOf (ic.place z).fireOrder x.tested := by
      rw [dutyOf_congr members]; exact f.duty
    have seats : Seats (ic.place z).fireOrder ({ x with ic := ic.place z }.reportZone z c).works.classes := by
      rw [classes]; exact seats_dutyOf whole.sound.orderOnce
    refine ⟨whole, ?_, ?_⟩
    · rw [Site.move_works, (Works.reorder_goes ..).classes_eq]
      refine classes.trans (congrArg _ ?_)
      exact (Site.move_stands m { x with ic := ic } z c).test.symm
    · rw [Site.move_works]
      exact reported.reorder m seats

/-! ### Tests -/

theorem Works.InPlace.tests {order : List ZoneId} {w : Works} (h : w.InPlace order) (t : TestSeq) :
    Works.InPlace order { w with ts := t } :=
  ⟨⟨h.right.once, h.right.owned, h.right.known, h.right.postedOnce, h.right.tally⟩, h.seats, h.ordered⟩

/-- The works while a test is closed: the record and the zone's report, the withdrawal of its demands, the end of the test and its
result (R122, R124). -/
theorem Site.closeTest_goes (cause : Option AbortCause) {u : Test} (h : x.works.ts.test = some u) :
    ∃ (v : Works) (t : TestSeq), Works.Goes x.ic.fireOrder x.works v ∧ t.test = none
      ∧ Works.Goes x.ic.fireOrder { v.withdraw m x.ic.fireOrder u.zone with ts := t } (x.closeTest m cause).works := by
  unfold Site.closeTest
  rw [h]
  exact ⟨_, _, (Works.Goes.tests x.works _ (by rfl)).trans (Works.report_goes ..), by rfl, Works.report_goes ..⟩

theorem Site.closeTest_resolves (cause : Option AbortCause) : x.Resolves (x.closeTest m cause) := by
  cases h : x.works.ts.test with
  | none => rw [x.closeTest_of_none m cause h]; exact .refl x
  | some u =>
    obtain ⟨v, t, record, none, result⟩ := x.closeTest_goes m cause h
    have minor := x.closeTest_minor m cause
    refine ⟨(((Works.Proceeds.goes record).trans (.ctx v u.zone Option.none)).trans
      (.goes (v.withdraw_goes m x.ic.fireOrder u.zone))).trans ((Works.Proceeds.tests _ t).trans (.goes result)), fun f => ?_⟩
    have tested : x.tested = some u.zone := by rw [Site.tested, h]; rfl
    have out : u.zone ∉ x.ic.fireOrder := f.whole.sound.not_mem (by
      rw [show (x.ic.zone u.zone).state = .testing from (f.whole.agrees u.zone).testing.mpr tested]; rfl)
    obtain ⟨ended, classes⟩ := (record.inPlace f.inPlace).withdraw m u.zone
    refine ⟨(minor.keeps f.whole).1, ?_, by rw [minor.order]; exact result.inPlace (ended.tests t)⟩
    rw [minor.order, Site.tested, x.closeTest_test m cause, Option.map_none, ← update_dutyOf_ends_test out, ← tested, ← f.duty,
      ← record.classes_eq, ← classes]
    exact result.classes_eq

/-- The works while a test is started: the record, the test and the zone's report, and the beginning of its plan (R119). -/
theorem Site.startTest_works (hold : Nat) :
    ∃ (v : Works) (t : TestSeq) (b : Option BlockId), t.test.map Test.zone = some z
      ∧ Works.Goes x.ic.fireOrder { x.works with ts := t } v
      ∧ (x.startTest m z hold).works = v.begin m x.ic.fireOrder z .test b :=
  ⟨_, _, _, by rfl, Works.report_goes .., rfl⟩

/-- A zone in NORMAL is put under test (R119). -/
theorem Site.startTest_resolves (hold : Nat) (ht : x.works.ts.test = none) (hs : (x.zone z).state = .normal) :
    x.Resolves (x.startTest m z hold) := by
  have minor := x.startTest_minor m z hold ht hs
  obtain ⟨v, t, b, ofTest, started, works⟩ := x.startTest_works m z hold
  obtain ⟨k, -, -, goes⟩ := v.begin_goes m x.ic.fireOrder z .test b
  refine ⟨works ▸ (((Works.Proceeds.tests x.works t).trans (.goes started)).trans (.ctx v z (some k))).trans (.goes goes),
    fun f => ?_⟩
  have untested : x.tested = none := by rw [Site.tested, ht]; rfl
  have out : z ∉ x.ic.fireOrder := f.whole.sound.not_mem (by rw [show (x.ic.zone z).state = .normal from hs]; rfl)
  have classes : v.classes = dutyOf x.ic.fireOrder none := by
    rw [started.classes_eq, ← untested, ← f.duty]; rfl
  have idle : v.ctx z = none := started.ctx_eq_none (f.ctx_eq_none out (by rw [untested]; simp))
  have duty := update_dutyOf_begins_test out
  obtain ⟨inPlace, begun⟩ := (started.inPlace (f.inPlace.tests t)).begin (m := m) (b := b) (cls := .test) idle (by
    rw [classes, duty]; exact seats_dutyOf f.whole.sound.orderOnce)
  have tested : (x.startTest m z hold).tested = some z := by
    rw [Site.tested, works, goes.classes.2]
    exact started.classes.2.trans ofTest
  exact ⟨(minor.keeps f.whole).1, by rw [minor.order, tested, ← duty, ← classes, works]; exact begun,
    by rw [minor.order, works]; exact inPlace⟩

/-! ### The operations -/

theorem Site.abortTest_resolves (a : AbortCause) : x.Resolves (x.abortTest m a) := x.closeTest_resolves m (some a)

/-- A change of a zone's record that moves it in or out of no list. -/
theorem Site.modZone_resolves (g : Zone → Zone) (h : x.Minor (x.modZone z g)) : x.Resolves (x.modZone z g) :=
  h.resolves (.refl _)

theorem Site.alarm_resolves (l : Line) : x.Resolves (x.alarm m l z) := by
  refine ((x.abortTest_resolves m .alarm).trans (Site.modZone_resolves _ z (fun r => { r with holders := r.holders.add l })
    (Site.modZone_minor_of_same _ z _ rfl rfl rfl rfl))).trans ?_
  have none : ((x.abortTest m .alarm).modZone z fun r => { r with holders := r.holders.add l }).works.ts.test = none :=
    x.abortTest_test m .alarm
  unfold Site.alarm
  dsimp only
  generalize Site.modZone .. = y at none
  split
  case h_1 e => exact y.takeIn_resolves m z _ fun _ => by simp [e, ZoneState.inFire]
  case h_2 e => exact y.takeIn_resolves m z _ fun f => absurd e (f.whole.no_testing none z)
  case h_3 e =>
    refine (y.modZone_resolves z _ (y.modZone_minor z _ ?_ ?_ ?_ rfl rfl fun _ => ?_)).trans (Site.reportZone_resolves _ z _) <;>
      simp [e, ZoneState.inFire]
  all_goals exact .refl y

theorem Site.beginPurge_resolves (hs : (x.zone z).state = .active) : x.Resolves (x.beginPurge z) :=
  x.modZone_resolves z _ (x.beginPurge_minor z hs)

theorem Site.restore_resolves (l : Line) : x.Resolves (x.restore m l z) := by
  refine (x.modZone_resolves z (fun r => { r with holders := r.holders.remove l })
    (x.modZone_minor_of_same z _ rfl rfl rfl rfl)).trans ?_
  unfold Site.restore
  dsimp only
  generalize Site.modZone .. = y
  split
  · exact .refl y
  split
  case h_1 e =>
    split
    · exact (y.beginPurge_resolves z e).trans (Site.reportZone_resolves _ z _)
    · exact .refl y
  case h_2 e => exact y.leave_resolves m z _ _ (.inl rfl) fun f => f.whole.not_tested (by rw [e]; simp)
  all_goals exact .refl y

theorem Site.reach_resolves (d : Nat) : x.Resolves (x.onWorks fun w => w.onPlant fun p => p.reach d) :=
  Works.Goes.resolves (.plant x.works _ (x.works.plant.reach_steady d))

theorem Site.purgeExpiry_resolves : x.Resolves (x.purgeExpiry m z) := by
  unfold Site.purgeExpiry
  dsimp only
  split
  case h_1 d e _ =>
    have zone : (x.onWorks fun w => w.onPlant fun p => p.reach d).zone z = x.zone z := rfl
    exact (x.reach_resolves d).trans (Site.leave_resolves m _ z _ _ (.inl rfl) fun f =>
      f.whole.not_tested (by rw [zone, e]; simp))
  case h_2 => exact .refl x

theorem Site.holdExpiry_resolves : x.Resolves (x.holdExpiry m) := by
  unfold Site.holdExpiry
  split
  · split
    · exact (x.reach_resolves _).trans (Site.closeTest_resolves m _ none)
    · exact .refl x
  · exact .refl x

theorem Site.extract_resolves (ht : x.works.ts.test = none) : x.Resolves (x.extract m z) := by
  have untested : x.tested ≠ some z := by rw [Site.tested, ht]; simp
  have out (f : x.Fair) (ha : (x.zone z).state ≠ .active) (hr : (x.zone z).state ≠ .restoring) : z ∉ x.ic.fireOrder :=
    f.whole.sound.not_mem (by
      rw [show x.ic.zone z = x.zone z from rfl]
      revert ha hr
      cases (x.zone z).state <;> simp [ZoneState.inFire])
  have active (ha : (x.zone z).state ≠ .active) (hr : (x.zone z).state ≠ .restoring) :=
    x.becomeActive_resolves m z .ff .ffExtract fun f => ⟨out f ha hr, untested⟩
  obtain ⟨-, -, e⟩ | ⟨hs, -, e⟩ | ⟨ha, hr, -, e⟩ | ⟨ha, hr, -, e⟩ := x.extract_cases m z <;> rw [e]
  · exact .refl x
  · refine (x.move_resolves m z _ (x.takeFf_move_keeps m z _ hs) x.ic.nextRank_fireOrder fun f => ?_).trans
      (Site.afterOrder_resolves m _ _)
    refine (f.whole.sound.each z).order.mpr ?_
    obtain e | e := hs <;> rw [show x.ic.zone z = x.zone z from rfl, e] <;> rfl
  · exact (active ha hr).trans (Site.startIncident_resolves m _)
  · exact (active ha hr).trans (Site.afterOrder_resolves m _ _)

theorem Site.holdOff_resolves (ht : x.works.ts.test = none) : x.Resolves (x.holdOff m z) := by
  unfold Site.holdOff
  split
  · exact .refl x
  · exact x.leave_resolves m z _ _ (.inr rfl) fun _ => by rw [Site.tested, ht]; simp

/-- A zone of origin FF takes origin ALARM and the place that it gives (R15). -/
theorem Site.surrender_move_resolves (hs : (x.zone z).state = .active) : x.Resolves ((x.surrender z).move m z c) := by
  obtain ⟨ic, surrendered, order⟩ : ∃ ic, x.surrender z = { x with ic := ic } ∧ ic.fireOrder = x.ic.fireOrder := by
    unfold Site.surrender
    split
    · exact ⟨_, rfl, rfl⟩
    · exact ⟨_, rfl, rfl⟩
  have keeps := x.surrender_move_keeps m z c hs
  rw [surrendered] at keeps ⊢
  refine x.move_resolves m z c keeps order fun f => (f.whole.sound.each z).order.mpr ?_
  rw [show x.ic.zone z = x.zone z from rfl, hs]
  rfl

theorem Site.handBack_resolves : x.Resolves (x.handBack m z) := by
  obtain ⟨hs, -, e⟩ | ⟨hs, -, e⟩ | ⟨hs, -, e⟩ | ⟨-, -, e⟩ := x.handBack_cases m z <;> rw [e]
  · refine (x.modZone_resolves z _ (x.modZone_minor z _ ?_ ?_ ?_ rfl rfl fun k => ?_)).trans (Site.reportZone_resolves _ z _)
    · simp [hs, ZoneState.inFire]
    · simp [hs]
    · simp [hs]
    · have := k.purge_eq_none (by rw [show x.ic.zone z = x.zone z from rfl, hs]; simp)
      simp [show (x.zone z).purge = none from this]
  · exact x.takeIn_resolves m z _ fun _ => by simp [hs, ZoneState.inFire]
  · exact (x.surrender_move_resolves m z _ hs).trans (Site.afterOrder_resolves m _ _)
  · exact .refl x

theorem Site.setMode_resolves (mode : ZoneMode) : x.Resolves (x.setMode m z mode) := by
  refine ((x.abortTest_resolves m .ff).trans (Site.modZone_resolves _ z (fun r => { r with ffMode := mode })
    (Site.modZone_minor_of_same _ z _ rfl rfl rfl rfl))).trans ?_
  have none : ((x.abortTest m .ff).modZone z fun r => { r with ffMode := mode }).works.ts.test = none := x.abortTest_test m .ff
  cases mode with
  | extract => exact Site.extract_resolves m _ z none
  | off => exact Site.holdOff_resolves m _ z none
  | auto => exact Site.handBack_resolves m _ z

end

/-- Every operation that a command can bring to the site keeps the demand lists right. -/
theorem Site.Act.resolves {m : Pmc} {x y : Site} (h : Site.Act m x y) : x.Resolves y := by
  cases h with
  | nothing => exact .refl x
  | alarm l z => exact x.alarm_resolves m z l
  | restore l z => exact x.restore_resolves m z l
  | setMode z mode => exact x.setMode_resolves m z mode
  | purgeExpiry z => exact x.purgeExpiry_resolves m z
  | holdExpiry => exact x.holdExpiry_resolves m
  | abortTest c => exact x.abortTest_resolves m c
  | startTest z hold ht hs => exact x.startTest_resolves m z hold ht hs

/-! ### Demand lists that are right -/

section
variable {x : Site}

/-- An executing zone stands in the fire order or is under test (R2). -/
theorem Site.Whole.duty_eq (h : x.Whole) (z : ZoneId) : dutyOf x.ic.fireOrder x.tested z =
    if (x.zone z).state = .testing then some .test else if (x.zone z).state.executes then some .fire else none := by
  unfold dutyOf
  have fire : z ∈ x.ic.fireOrder ↔ (x.zone z).state.inFire = true := (h.sound.each z).order
  have tested : x.tested = some z ↔ (x.zone z).state = .testing := (h.agrees z).testing.symm
  simp only [fire, tested]
  cases (x.zone z).state <;> simp [ZoneState.inFire, ZoneState.executes]

theorem Site.DemandsRight.right (d : x.DemandsRight) : x.works.Right x.works.classes where
  once := d.once
  owned a e he := by
    have held := d.held a e he
    unfold Works.Held at held
    unfold Demand.Owned
    cases ho : e.orig with
    | zone z =>
      rw [ho] at held
      obtain ⟨c, hc, cls, -⟩ := held
      exact ⟨c.cls, by simp [Works.classes, hc], cls⟩
    | _ => rw [ho] at held; exact held
  known z c hc := by simp [Works.classes, hc]
  postedOnce := d.postedOnce
  tally z c hc a p := by
    have held {b : ActId} {e : Demand} (he : e ∈ x.works.plant.demands.look b) (ho : e.orig = .zone z) :
        (b, e.pos) ∈ c.posted := by
      have held := d.held b e he
      unfold Works.Held at held
      rw [ho] at held
      obtain ⟨c', hc', -, posted⟩ := held
      obtain rfl : c = c' := Option.some.inj (hc.symm.trans hc')
      exact posted
    constructor
    · intro posted
      obtain ⟨e, he, ho⟩ := d.posted z c hc _ posted
      exact ⟨e, he, ho, congrArg Prod.snd (List.inj_on_of_nodup_map (d.postedOnce z c hc) (held he ho) posted rfl)⟩
    · rintro ⟨e, he, ho, rfl⟩
      exact held he ho

theorem Site.fair_of_demandsRight (h : x.Whole) (d : x.DemandsRight) : x.Fair := by
  have duty : x.works.classes = dutyOf x.ic.fireOrder x.tested := by
    funext z
    rw [h.duty_eq]
    cases hc : x.works.ctx z with
    | none =>
      have idle : ¬ (x.zone z).state.executes = true := fun k => by simpa [hc] using (h.agrees z).executing.mpr k
      have untested : (x.zone z).state ≠ .testing := fun k => idle (by rw [k]; rfl)
      simp [Works.classes, hc, idle, untested]
    | some c =>
      have executes : (x.zone z).state.executes = true := (h.agrees z).executing.mp (by rw [hc]; rfl)
      have cls := d.cls z c hc
      cases k : c.cls with
      | fire =>
        have untested : (x.zone z).state ≠ .testing := fun t => by simp [k] at cls; exact cls t
        simp [Works.classes, hc, k, untested, executes]
      | test => simp [Works.classes, hc, k, cls.mp k]
  exact ⟨h, duty, ⟨d.right, duty ▸ seats_dutyOf h.sound.orderOnce, d.ordered⟩⟩

theorem Site.Fair.demandsRight (f : x.Fair) : x.DemandsRight where
  ordered := f.inPlace.ordered
  once := f.inPlace.right.once
  held a e he := by
    have owned := f.inPlace.right.owned a e he
    unfold Demand.Owned at owned
    unfold Works.Held
    cases ho : e.orig with
    | zone z =>
      rw [ho] at owned
      obtain ⟨k, hk, cls⟩ := owned
      obtain ⟨c, hc, rfl⟩ := Option.map_eq_some_iff.mp hk
      exact ⟨c, hc, cls, (f.inPlace.right.tally z c hc a e.pos).mpr ⟨e, he, ho, rfl⟩⟩
    | _ => rw [ho] at owned; exact owned
  postedOnce := f.inPlace.right.postedOnce
  posted z c hc r hr := by
    obtain ⟨e, he, ho, -⟩ := (f.inPlace.right.tally z c hc r.1 r.2).mp hr
    exact ⟨e, he, ho⟩
  cls z c hc := by
    have duty := congrFun f.duty z
    rw [f.whole.duty_eq, Works.classes, hc, Option.map_some] at duty
    by_cases ht : (x.zone z).state = .testing
    · simp_all
    · rw [if_neg ht] at duty
      split at duty <;> simp_all

end

end Sys2Proof.Machine
end

section
/-!
SUPPORT. What every command does to the demand lists, the targets and the zones that execute, while the 6408 runs and while it starts
up.
-/

namespace Sys2Proof.Machine

/-- From `s` to `t` the mode stands, and the site goes on with its demand lists right. -/
structure State.Resolves (s t : State) : Prop where
  mode : t.mode = s.mode
  site : s.site.Resolves t.site

theorem State.Resolves.of_same {s t : State} (hm : t.mode = s.mode) (hs : t.site = s.site) : s.Resolves t := ⟨hm, hs ▸ .refl _⟩

theorem State.Resolves.refl (s : State) : s.Resolves s := .of_same rfl rfl

theorem State.Resolves.trans {s t u : State} (h : s.Resolves t) (i : t.Resolves u) : s.Resolves u :=
  ⟨i.mode.trans h.mode, h.site.trans i.site⟩

/-! ### Changes of the state -/

section
variable (s : State) (p : Port)

theorem State.onSite_resolves (g : Pmc → Site → Site) (h : Site.Act s.pmc s.site (g s.pmc s.site)) :
    s.Resolves (s.onSite g) :=
  ⟨s.onSite_mode g, by rw [State.onSite_site]; exact h.resolves⟩

theorem State.onWorks_resolves (g : Pmc → List ZoneId → Works → Works)
    (h : ∀ m order w, Works.Goes order w (g m order w)) : s.Resolves (s.onWorks g) :=
  ⟨rfl, (h _ _ _).resolves⟩

/-- A change of the channels alone. -/
theorem State.onPlantOnly_resolves (g : Plant → Plant) (h : ∀ x, Plant.Steady x (g x)) :
    s.Resolves (s.onWorksOnly fun w => w.onPlant g) :=
  ⟨rfl, (s.site.works.onPlant_goes s.site.ic.fireOrder g (h _)).resolves⟩

/-- A change of the channels and all that it calls for. -/
theorem State.onPlant_resolves (g : Plant → Plant) (h : ∀ x, Plant.Steady x (g x)) : s.Resolves (s.onPlant g) :=
  s.onWorks_resolves _ fun m order w => w.change_goes m order g (h _)

theorem State.report_resolves (k : ReportKind) (u : Option Subject) (n : Option NewState) (d : Option Detail) :
    s.Resolves (s.report k u n d) :=
  ⟨rfl, (s.site.works.report_goes s.site.ic.fireOrder k u n d).resolves⟩

theorem State.reach_resolves (d : Nat) : s.Resolves (s.reach d) := s.onPlantOnly_resolves _ fun x => x.reach_steady d

theorem State.whenRunning_resolves (g : State → State) (h : s.Resolves (g s)) : s.Resolves (s.whenRunning g) := by
  unfold State.whenRunning
  split
  · exact h
  · exact .refl s

theorem State.supervise_resolves : s.Resolves (s.supervise p) := by
  refine ⟨s.supervise_mode p, ?_⟩
  rw [State.supervise_site]
  split
  · exact (s.report_resolves ..).site
  · exact .refl _

end

/-! ### An entry asked for -/

/-- What a setting asks of a channel may stand in its list (R46, R54). -/
theorem askedOf_takes {x : Plant} {a : ActId} {st : Setting} {speed : Nat} {p : Position}
    (h : askedOf (x.chans.look a) st speed = .ok (.place p)) : x.Takes a p := by
  intro bounded
  cases hc : x.chans.look a with
  | unassigned => rw [hc] at h; cases h
  | damper d =>
    rw [hc] at h
    cases st <;> cases h <;> rfl
  | fan f =>
    rw [hc] at h bounded
    have minSpeed : f.cfg.minSpeed ≤ 1000 := bounded f.cfg rfl
    cases st with
    | opened | closed | release => cases h
    | off => cases h; rfl
    | on =>
      obtain rfl : _ = p := Asked.place.inj (Except.ok.inj h)
      unfold rangedOn
      split
      · rfl
      · simp only [Channel.admits, decide_eq_true_eq]
        split
        · exact le_rfl
        · exact le_min minSpeed (Nat.le_of_lt (Nat.not_le.mp ‹_›))

/-- What an accepted SET OVERRIDE or SET NORMAL asks of a list (R56, R59). -/
theorem State.ask_resolves (s : State) {a : ActId} {st : Setting} {speed : Nat} {q : Asked}
    (h : askedOf (s.site.works.plant.chans.look a) st speed = .ok q) (cls : DemandClass) (o : Originator) (ho : o.owns cls) :
    s.Resolves (s.onPlant fun x => x.ask s.site.ic.fireOrder a cls o q) := by
  refine ⟨rfl, Works.Goes.resolves (.trans ?_ (Works.settle_goes ..))⟩
  cases q with
  | place p => exact .place s.site.works a ⟨cls, o, p⟩ ho (askedOf_takes h)
  | release => exact .drop s.site.works o a fun z e => by rw [e] at ho; exact ho.elim

/-! ### The owners of the requests -/

/-- An owner that leaves the demand lists right. -/
def Resolving (o : Owner) : Prop := ∀ s : State, s.Resolves (o s).1

section
variable {α : Type} {o : Owner} (e : Reason)

theorem resolving_of_same (hm : ∀ s, (o s).1.mode = s.mode) (hs : ∀ s, (o s).1.site = s.site) : Resolving o := fun s =>
  .of_same (hm s) (hs s)

theorem resolving_refuse : Resolving (refuse e) := fun s => .refl s

theorem resolving_withFields {b : Body α} {k : α → Owner} (h : ∀ a, Resolving (k a)) : Resolving (withFields b k) := by
  cases b with
  | fields a => exact h a
  | malformed => exact resolving_refuse _

theorem resolving_withId {a : Option α} {k : α → Owner} (h : ∀ a, Resolving (k a)) : Resolving (withId a k) := by
  cases a with
  | some a => exact h a
  | none => exact resolving_refuse _

theorem resolving_require (ok : State → Bool) (h : ∀ s, ok s = true → s.Resolves (o s).1) : Resolving (require ok e o) := by
  intro s
  obtain ⟨c, k⟩ | ⟨-, k⟩ := require_cases s ok e o <;> rw [k]
  · exact h s c
  · exact .refl s

theorem State.serve_resolves (s : State) (p : Port) (permitted : Port → Bool) (h : Resolving o) :
    s.Resolves (s.serve permitted o p) := by
  obtain ⟨-, k⟩ | ⟨-, -, k⟩ | ⟨-, -, k⟩ := s.serve_cases p permitted o <;> rw [k]
  · exact .refl s
  · exact (s.supervise_resolves p).trans (.of_same rfl rfl)
  · exact ((s.supervise_resolves p).trans (h _)).trans (.of_same rfl rfl)

end

theorem resolving_unbroken {o : Owner} (b : Option BlockId) (h : Resolving o) : Resolving (unbroken b o) := by
  intro s
  unfold unbroken
  split
  · split
    · exact h s
    · exact .of_same rfl rfl
  · exact h s

/-- A check that does not pass leaves the state alone. -/
theorem resolving_guard {o : Owner} (e : Reason) (ok : State → Bool) (h : Resolving o) : Resolving (require ok e o) :=
  resolving_require e ok fun s _ => h s

/-! ### Requests of the channels and the zones -/

theorem resolving_settingAsked (b : Body SettingArgs) {k : ActId → Asked → Owner}
    (h : ∀ (s : State) a st speed q, askedOf (s.site.works.plant.chans.look a) st speed = .ok q → s.Resolves (k a q s).1) :
    Resolving (settingAsked b k) := by
  refine resolving_withFields fun x => resolving_withId fun a s => ?_
  split
  case h_1 q asked => exact h s a _ _ q asked
  case h_2 => exact .refl s

theorem resolving_clearFaultOwner (b : Body Nat) : Resolving (clearFaultOwner b) := by
  refine resolving_withFields fun n => resolving_withId fun a s => ?_
  split
  · exact .refl s
  · exact s.onPlant_resolves _ fun x => x.clearDamper_steady a
  · exact s.onPlant_resolves _ fun x => x.clearFan_steady a

theorem resolving_reported (p : Port) (b : Body Nat) {act : Line → ZoneId → Owner} (h : ∀ l z, Resolving (act l z)) :
    Resolving (reported p b act) := by
  refine resolving_withFields fun n => resolving_withId fun z => resolving_guard _ _ ?_
  cases p with
  | alarm l => exact resolving_guard _ _ (h l z)
  | ff | bl => exact resolving_refuse _

theorem resolving_setZoneModeOwner (b : Body ZoneModeArgs) : Resolving (setZoneModeOwner b) :=
  resolving_withFields fun x => resolving_withId fun z => resolving_guard _ _ fun s =>
    s.onSite_resolves (fun m y => y.setMode m z x.mode) (.setMode z x.mode)

/-- TEST ZONE begins a test only where none runs, of a NORMAL zone (R118). -/
theorem resolving_testZoneOwner (b : Body TestArgs) : Resolving (testZoneOwner b) := by
  refine resolving_withFields fun x => resolving_withId fun z => resolving_guard _ _ <| resolving_guard _ _ ?_
  refine resolving_require _ _ fun s tested => ?_
  obtain ⟨normal, k⟩ | ⟨-, k⟩ := require_cases s
    (fun s => (s.site.ic.config z).testPermitted && (s.site.zone z).state == .normal) .notPermitted _ <;> rw [k]
  case inr => exact .refl s
  obtain ⟨-, k⟩ | ⟨-, k⟩ := require_cases s (fun s => s.ownPlanValid z) .noPlan _ <;> rw [k]
  case inr => exact .refl s
  obtain ⟨-, k⟩ | ⟨-, k⟩ := require_cases s (fun s => s.pmc.ctrl == .ready) .planMemoryBusy _ <;> rw [k]
  case inr => exact .refl s
  refine s.onSite_resolves (fun m y => y.startTest m z (heldFor x.hold)) (.startTest z _ ?_ ?_)
  · simpa [State.testRunning] using tested
  · simpa using (Bool.and_eq_true_iff.mp normal).2

theorem resolving_abortTestOwner (b : Body Unit) : Resolving (abortTestOwner b) :=
  resolving_withFields fun _ => resolving_guard _ _ fun s =>
    s.onSite_resolves (fun m x => x.abortTest m .abortTest) (.abortTest _)

theorem resolving_restartOwner (b : Body Unit) : Resolving (restartOwner b) :=
  resolving_withFields fun _ => resolving_guard _ _ <| resolving_guard _ _ <| resolving_guard _ _ fun _ => .of_same rfl rfl

/-! ### Requests of plan memory, which leave the site alone -/

theorem resolving_eraseSetupOwner (b : Body Nat) : Resolving (eraseSetupOwner b) :=
  resolving_withFields fun _ => resolving_withId fun _ => resolving_unbroken _ <| resolving_guard _ _ <| resolving_guard _ _ <|
    resolving_guard _ _ <| resolving_of_same (fun _ => rfl) fun _ => rfl

theorem resolving_eraseConfirmOwner (b : Body Nat) : Resolving (eraseConfirmOwner b) := by
  refine resolving_withFields fun _ => resolving_withId fun b => resolving_unbroken _ fun s => ?_
  dsimp only
  refine State.Resolves.trans (t := if (s.pmc.ctrl == .eraseSetup b) = true then s.onPmc fun m => m.setCtrl .ready else s) ?_
    ((resolving_guard _ _ <| resolving_guard _ _ <| resolving_guard _ _ fun s => ?_) _)
  · split <;> exact .of_same rfl rfl
  · split
    · exact .of_same rfl rfl
    · split
      · exact .of_same rfl rfl
      · split <;> exact .of_same rfl rfl

theorem resolving_writeRecordOwner (b : Body WriteArgs) : Resolving (writeRecordOwner b) :=
  resolving_withFields fun _ => resolving_withId fun _ => resolving_withId fun _ => resolving_unbroken _ <|
    resolving_guard _ _ <| resolving_guard _ _ <| resolving_guard _ _ <| resolving_guard _ _ fun s => by
      split <;> exact .of_same rfl rfl

theorem resolving_commitOwner (b : Body Nat) : Resolving (commitOwner b) :=
  resolving_withFields fun _ => resolving_withId fun _ => resolving_unbroken _ <| resolving_guard _ _ <| resolving_guard _ _ <|
    resolving_guard _ _ <| resolving_guard _ _ fun s => by
      split
      · exact .of_same rfl rfl
      · split
        · exact .of_same rfl rfl
        · split <;> exact .of_same rfl rfl

theorem resolving_suspendOwner (b : Body Unit) : Resolving (suspendOwner b) :=
  resolving_withFields fun _ => resolving_unbroken _ fun s => by
    split <;> exact .of_same rfl rfl

theorem resolving_resumeOwner (b : Body Unit) : Resolving (resumeOwner b) :=
  resolving_withFields fun _ => resolving_unbroken _ fun s => by
    split
    · refine (resolving_guard _ _ <| resolving_guard _ _ fun s => ?_) s
      split <;> exact .of_same rfl rfl
    · exact .refl s

theorem resolving_lockOwner (b : Body Nat) : Resolving (lockOwner b) :=
  resolving_withFields fun _ => resolving_withId fun _ => resolving_unbroken _ <| resolving_guard _ _ <|
    resolving_of_same (fun _ => rfl) fun _ => rfl

theorem resolving_lockDownOwner (b : Body Nat) : Resolving (lockDownOwner b) :=
  resolving_withFields fun _ => resolving_withId fun _ => resolving_unbroken _ <| resolving_guard _ _ <|
    resolving_of_same (fun _ => rfl) fun _ => rfl

theorem resolving_unlockOwner (b : Body Nat) : Resolving (unlockOwner b) :=
  resolving_withFields fun _ => resolving_withId fun _ => resolving_unbroken _ <| resolving_guard _ _ <|
    resolving_guard _ _ fun s => by
      split <;> exact .of_same rfl rfl

theorem resolving_readRecordOwner (b : Body PositionArgs) : Resolving (readRecordOwner b) :=
  resolving_withFields fun _ => resolving_withId fun _ => resolving_withId fun _ => resolving_guard _ _ fun s => .refl s

/-! ### Reads -/

/-- The reports read leave the port's queue, and nothing else changes (R159). -/
theorem State.setQueue_resolves (s : State) (p : Port) (q : ReportQueue) : s.Resolves (s.setQueue p q) :=
  s.onPlantOnly_resolves _ fun x => by cases p <;> exact .of_same rfl rfl

theorem resolving_readReportsOwner (p : Port) (b : Body Nat) : Resolving (readReportsOwner p b) := by
  refine resolving_withFields fun n s => ?_
  split
  · split
    · exact s.setQueue_resolves p _
    · exact .refl s
  · exact .refl s

theorem resolving_zoneTableOwner (b : Body ZoneReadArgs) : Resolving (zoneTableOwner b) := by
  refine resolving_withFields fun x => ?_
  cases x with
  | range first count => exact resolving_withId fun _ s => .refl s
  | step n k =>
    refine resolving_withId fun z s => ?_
    split <;> exact .refl s

/-- A read's owner leaves the state alone. -/
theorem resolving_read {α : Type} (b : Body α) (f : α → State → Answer) : Resolving (withFields b fun a s => (s, f a s)) :=
  resolving_withFields fun _ s => .refl s

/-! ### Every request -/

theorem execRequest_resolves (i : Instr) (s : State) : ∃ t, execRequest i s = .next t ∧ s.Resolves t := by
  have served {o : Owner} (p : Port) (permitted : Port → Bool) (h : Resolving o) :
      ∃ t, (.next (s.serve permitted o p) : Host.Outcome State Fault Refusal) = .next t ∧ s.Resolves t :=
    ⟨_, rfl, s.serve_resolves p permitted h⟩
  cases i with
  | poll p b | ackRestart p b => exact served p _ (resolving_withFields fun _ s => .of_same rfl rfl)
  | alarm p b => exact served p _ (resolving_reported p b fun l z s =>
    s.onSite_resolves (fun m x => x.alarm m l z) (.alarm l z))
  | restore p b => exact served p _ (resolving_reported p b fun l z s =>
    s.onSite_resolves (fun m x => x.restore m l z) (.restore l z))
  | setZoneMode p b => exact served p _ (resolving_setZoneModeOwner b)
  | setOverride p b =>
    exact served p _ (resolving_settingAsked b fun s a st speed q asked => s.ask_resolves asked .manual .ff rfl)
  | clearFault p b => exact served p _ (resolving_clearFaultOwner b)
  | setNormal p b =>
    refine served p _ (resolving_settingAsked b fun s a st speed q asked => ?_)
    obtain ⟨-, k⟩ | ⟨-, k⟩ := require_cases s (fun s => !s.incident) .fireMode _ <;> rw [k]
    · exact s.ask_resolves asked .normal .bl rfl
    · exact .refl s
  | testZone p b => exact served p _ (resolving_testZoneOwner b)
  | abortTest p b => exact served p _ (resolving_abortTestOwner b)
  | restartController p b => exact served p _ (resolving_restartOwner b)
  | eraseSetup p b => exact served p _ (resolving_eraseSetupOwner b)
  | eraseConfirm p b => exact served p _ (resolving_eraseConfirmOwner b)
  | writeRecord p b => exact served p _ (resolving_writeRecordOwner b)
  | commit p b => exact served p _ (resolving_commitOwner b)
  | suspend p b => exact served p _ (resolving_suspendOwner b)
  | resume p b => exact served p _ (resolving_resumeOwner b)
  | lock p b => exact served p _ (resolving_lockOwner b)
  | lockDown p b => exact served p _ (resolving_lockDownOwner b)
  | unlock p b => exact served p _ (resolving_unlockOwner b)
  | readRecord p b => exact served p _ (resolving_readRecordOwner b)
  | readBlockStates p b | planStatus p b | queryGeometry p b | startQueueRead p b | linkTableRead p b =>
    exact served p _ (resolving_read b _)
  | clearPlanStatus p b => exact served p _ (resolving_withFields fun _ s => .of_same rfl rfl)
  | readReports p b => exact served p _ (resolving_readReportsOwner p b)
  | zoneTableRead p b => exact served p _ (resolving_zoneTableOwner b)
  | actuatorTableRead p b | groupTableRead p b | testRecordRead p b =>
    exact served p _ (resolving_withFields fun _ => resolving_withId fun _ s => .refl s)
  | unknownRequestCode p c => exact served p _ (resolving_refuse _)
  | _ => exact ⟨s, rfl, .refl s⟩

/-! ### Every command -/

theorem execCrcFailure_resolves (p : Port) (s : State) : ∃ t, execCrcFailure p s = .next t ∧ s.Resolves t := by
  refine ⟨_, rfl, ?_⟩
  split <;> exact .of_same rfl rfl

theorem State.received_resolves (s : State) (p : Port) (x : Received) : ∃ t, s.received p x = .next t ∧ s.Resolves t := by
  unfold State.received
  split
  · exact ⟨_, rfl, .of_same rfl rfl⟩
  · exact ⟨_, rfl, .of_same rfl rfl⟩
  · exact execCrcFailure_resolves p s
  · split
    · exact execRequest_resolves _ s
    · exact ⟨_, rfl, .of_same rfl rfl⟩

theorem execByteArriving_resolves (p : Port) (b : Byte) (stopBit : Bool) (s : State) :
    ∃ t, execByteArriving p b stopBit s = .next t ∧ s.Resolves t := by
  unfold execByteArriving
  split
  · split
    · exact s.received_resolves p _
    · exact s.received_resolves p _
    · exact ⟨s, rfl, .refl s⟩
  · exact ⟨s, rfl, .refl s⟩

section
variable (s : State)

theorem State.endOp_resolves (k : OpKind) (b : BlockId) (d : Nat) (g : Pmc → Pmc) : s.Resolves (s.endOp k b d g) :=
  .trans (.trans (.of_same (t := { s with pmc := { (g s.pmc).lockIfOff b with ctrl := .ready } }) rfl rfl)
    (State.reach_resolves _ d)) (State.report_resolves ..)

theorem State.gapExpiry_resolves (p : Port) : s.Resolves (s.gapExpiry p) := by
  unfold State.gapExpiry
  split
  · exact (s.reach_resolves _).trans (.of_same rfl rfl)
  · exact .refl s

theorem State.silenced_resolves (p : Port) : s.Resolves (s.silenced p) := by
  unfold State.silenced
  split
  · exact .refl s
  · exact .refl s
  · exact (s.onWorks_resolves _ fun m order w => w.withdrawNormals_goes m order).trans
      (State.onSite_resolves _ (fun m x => x.abortTest m .blSilent) (.abortTest _))

theorem State.windowExpiry_resolves (p : Port) : s.Resolves (s.windowExpiry p) := by
  unfold State.windowExpiry
  dsimp only
  split
  · refine State.Resolves.trans ?_ (State.silenced_resolves _ p)
    refine State.Resolves.trans ?_ (State.report_resolves ..)
    exact ⟨rfl, (s.reach_resolves _).site⟩
  · exact .refl s

theorem State.onInput_resolves {g h : Plant → Plant} (hg : ∀ x, Plant.Steady x (g x)) (hh : ∀ x, Plant.Steady x (h x)) :
    s.Resolves (s.onInput g h) := by
  unfold State.onInput
  split
  · exact s.onPlant_resolves g hg
  · exact s.onPlantOnly_resolves h hh

/-- A reset keeps the demand lists and every target, until the start-up operation ends (R165). -/
theorem State.beginStartUp_proceeds (kind : StartKind) :
    (s.beginStartUp kind).mode ≠ .running ∧ Works.Proceeds s.site.works (s.beginStartUp kind).site.works := by
  have off : Plant.Steady s.site.works.plant (s.site.works.plant.beginStartUp kind) :=
    (s.site.works.plant.map_steady Channel.off fun c => by cases c <;> exact ⟨rfl, rfl⟩).trans (.of_same rfl rfl)
  exact ⟨by simp [State.beginStartUp], .trans (.goes (.plant (order := []) s.site.works _ off)) (.tests _ _)⟩

/-- While the 6408 runs a command leaves the demand lists right, or it is a reset. -/
theorem exec_resolves (i : Instr) (hr : s.mode = .running) : ∃ t, exec i s = .next t
    ∧ (s.Resolves t ∨ t.mode ≠ .running ∧ Works.Proceeds s.site.works t.site.works) := by
  have went {t : State} (h : s.Resolves t) : ∃ u, (.next t : Host.Outcome State Fault Refusal) = .next u
      ∧ (s.Resolves u ∨ u.mode ≠ .running ∧ Works.Proceeds s.site.works u.site.works) := ⟨t, rfl, .inl h⟩
  have expires (g : State → State) (h : s.Resolves (g s)) := went (s.whenRunning_resolves g h)
  have channel {g : Plant → Plant} (h : ∀ x, Plant.Steady x (g x)) :=
    expires (fun s => s.onPlant g) (s.onPlant_resolves g h)
  have taken {o : Host.Outcome State Fault Refusal} (h : ∃ t, o = .next t ∧ s.Resolves t) :
      ∃ t, o = .next t ∧ (s.Resolves t ∨ t.mode ≠ .running ∧ Works.Proceeds s.site.works t.site.works) := by
    obtain ⟨t, rfl, h⟩ := h
    exact went h
  have request (i : Instr) (same : exec i s = execRequest i s) := taken (same ▸ execRequest_resolves i s)
  cases i with
  | crcFailure p => exact taken (execCrcFailure_resolves p s)
  | byteArriving p b stopBit => exact taken (execByteArriving_resolves p b stopBit s)
  | gapExpiry p => exact expires _ (s.gapExpiry_resolves p)
  | replySent p =>
    refine ⟨_, rfl, ?_⟩
    unfold State.whenRunning State.replySent
    split
    · split
      · dsimp only
        split
        · exact .inr (State.beginStartUp_proceeds _ _)
        · exact .inl (.of_same rfl rfl)
      · exact .inl (.refl s)
    · exact .inl (.refl s)
  | supervisionWindowExpiry p => exact expires _ (s.windowExpiry_resolves p)
  | purgeExpiry z => exact expires _ (s.onSite_resolves (fun m x => x.purgeExpiry m z) (.purgeExpiry z))
  | dwellExpiry z => exact expires _ (s.onWorks_resolves _ fun m order w => w.dwellExpiry_goes m order z)
  | stepTimeoutExpiry z => exact expires _ (s.onWorks_resolves _ fun m order w => w.stepTimeoutExpiry_goes m order z)
  | holdExpiry => exact expires _ (s.onSite_resolves (fun m x => x.holdExpiry m) .holdExpiry)
  | travelTimerExpiry a => exact channel fun x => x.travelExpiry_steady a
  | proofTimerExpiry a => exact channel fun x => x.proofExpiry_steady a
  | runDownExpiry a => exact channel fun x => x.runDownExpiry_steady a
  | staggerExpiry => exact channel fun x => x.staggerExpiry_steady
  | slewUpdate => exact channel fun x => x.slewUpdate_steady
  | eraseCompletion v =>
    refine expires _ ?_
    split
    · exact s.endOp_resolves ..
    · exact .refl s
  | writeCompletion =>
    refine expires _ ?_
    split
    · exact s.endOp_resolves ..
    · exact .refl s
  | commitCompletion =>
    refine expires _ ?_
    split
    · exact s.endOp_resolves ..
    · exact .refl s
  | switchChange a o c => exact went (s.onInput_resolves (fun x => x.switchChange_steady a o c) fun _ => .of_same rfl rfl)
  | proofArrives a => exact went (s.onInput_resolves (fun x => x.proofArrives_steady a) fun x => x.setProof_steady a true)
  | proofLost a => exact went (s.onInput_resolves (fun x => x.proofLost_steady a) fun x => x.setProof_steady a false)
  | commissioningInputOff | commissioningInputOn =>
    refine ⟨_, rfl, .inl ?_⟩
    split <;> exact .of_same rfl rfl
  | powerOnReset | resetInputAsserted => exact ⟨_, rfl, .inr (s.beginStartUp_proceeds _)⟩
  | resetInputReleased =>
    refine ⟨_, rfl, .inl (.of_same ?_ ?_)⟩ <;> simp [State.resetReleased, hr]
  | startUpOperation =>
    refine ⟨s, ?_, .inl (.refl s)⟩
    simp [exec, execStartUpOperation, hr]
  | _ => exact request _ rfl

/-- While the 6408 starts up a command keeps the demand lists and every target, or it is the end of the start-up operation. -/
theorem exec_proceeds_of_starting (i : Instr) (hr : s.mode ≠ .running) : ∃ t, exec i s = .next t
    ∧ (t.mode ≠ .running ∧ Works.Proceeds s.site.works t.site.works ∨ ∃ kind, t = s.completeStartUp kind) := by
  have stays {o : Host.Outcome State Fault Refusal} (h : o = .next s) : ∃ t, o = .next t
      ∧ (t.mode ≠ .running ∧ Works.Proceeds s.site.works t.site.works ∨ ∃ kind, t = s.completeStartUp kind) :=
    ⟨s, h, .inl ⟨hr, .refl _⟩⟩
  have event (g : State → State) := stays (o := .next (s.whenRunning g)) (congrArg _ (s.whenRunning_of_starting hr g))
  have request (i : Instr) (same : exec i s = execRequest i s) := stays (same.trans (execRequest_of_starting s hr i))
  have input {g h : Plant → Plant} (hh : ∀ x, Plant.Steady x (h x)) : ∃ t,
      (.next (s.onInput g h) : Host.Outcome State Fault Refusal) = .next t
      ∧ (t.mode ≠ .running ∧ Works.Proceeds s.site.works t.site.works ∨ ∃ kind, t = s.completeStartUp kind) := by
    refine ⟨_, rfl, .inl ?_⟩
    unfold State.onInput
    rw [s.not_running hr]
    exact ⟨hr, (s.onPlantOnly_resolves h hh).site.proceeds⟩
  cases i with
  | crcFailure p => exact stays (by simp [exec, execCrcFailure, State.taking, s.not_running hr])
  | byteArriving p b stopBit => exact stays (by simp [exec, execByteArriving, s.not_running hr])
  | gapExpiry | replySent | supervisionWindowExpiry | purgeExpiry | dwellExpiry | stepTimeoutExpiry | holdExpiry
  | travelTimerExpiry | proofTimerExpiry | runDownExpiry | staggerExpiry | slewUpdate | eraseCompletion | writeCompletion
  | commitCompletion => exact event _
  | switchChange => exact input fun _ => .of_same rfl rfl
  | proofArrives a => exact input fun x => x.setProof_steady a true
  | proofLost a => exact input fun x => x.setProof_steady a false
  | commissioningInputOff | commissioningInputOn =>
    refine ⟨_, rfl, .inl ?_⟩
    split <;> exact ⟨hr, .refl _⟩
  | powerOnReset | resetInputAsserted => exact ⟨_, rfl, .inl (s.beginStartUp_proceeds _)⟩
  | resetInputReleased =>
    refine ⟨_, rfl, .inl ?_⟩
    unfold State.resetReleased
    dsimp only
    split
    · exact ⟨by simp, .refl _⟩
    · exact ⟨hr, .refl _⟩
  | startUpOperation =>
    refine ⟨_, rfl, ?_⟩
    split
    · exact .inr ⟨_, rfl⟩
    · exact .inl ⟨hr, .refl _⟩
  | _ => exact request _ rfl

end

end Sys2Proof.Machine
end

section
/-!
SUPPORT. Every step of the 6408 keeps the demand lists in order, and every target resolved: O9, O10.
-/

namespace Sys2Proof.Machine

/-! ### The end of the start-up operation (R63, R82) -/

/-- A fan's minimum speed as written is in its range (R83, R166). -/
theorem chanEntry_bounded (r : List Byte) (o : Nat) : (chanEntry r o).Bounded := by
  unfold chanEntry
  split
  · exact ChanCfg.bounded_of_other (by simp)
  · exact ChanCfg.bounded_fan (max_le (by omega) ((min_le_left ..).trans (by omega)))
  · exact ChanCfg.bounded_of_other (by simp)

theorem writtenChan_bounded (m : Pmc) (a : ActId) : (m.writtenChan a).Bounded := by
  unfold Pmc.writtenChan
  split
  · exact chanEntry_bounded _ _
  · exact ChanCfg.bounded_of_other (by simp)

/-- The channels as settled keep their minimum speeds (R168). -/
theorem settledChans_bounded (written : Table ChanCfg 64) (h : ∀ a, (written.look a).Bounded) (a : ActId) :
    ((settledChans written).look a).Bounded := by
  have kept : (if lateFan written a then ChanCfg.unassigned else written.look a).Bounded := by
    cases lateFan written a
    · exact h a
    · exact ChanCfg.bounded_of_other (by simp)
  unfold settledChans
  simp only [Table.look_of]
  split
  case h_1 f hf => exact ChanCfg.bounded_fan (kept f hf)
  case h_2 => exact kept

/-- A channel as derived has its configuration, and its aim is its rest position (R81, R82). -/
theorem ChanCfg.derive_config (c : ChanCfg) (i : ChanInputs) :
    (c.derive i).config = c ∧ (c.derive i).aim.Follows (resolve (c.derive i) []) := by
  cases c with
  | unassigned => exact ⟨rfl, trivial⟩
  | fan f => exact ⟨rfl, _, rfl⟩
  | damper d =>
    unfold ChanCfg.derive DamperCfg.derive
    dsimp only
    split
    · exact ⟨rfl, _, _, rfl⟩
    · split
      · exact ⟨rfl, _, _, rfl⟩
      · exact ⟨rfl, _, _, rfl⟩

section
variable (kind : StartKind) (s : State)

theorem State.completeStartUp_chans :
    ∃ inputs : Table ChanInputs 64, (s.completeStartUp kind).plant.chans
      = Table.of fun a => ((settledChans (Table.of s.pmc.reclassify.writtenChan)).look a).derive (inputs.look a) :=
  ⟨_, rfl⟩

/-- Every channel is derived from a configuration with its minimum speed in range. -/
theorem State.completeStartUp_look (a : ActId) :
    ∃ (c : ChanCfg) (i : ChanInputs), c.Bounded ∧ (s.completeStartUp kind).plant.chans.look a = c.derive i := by
  obtain ⟨inputs, chans⟩ := s.completeStartUp_chans kind
  rw [chans, Table.look_of]
  generalize s.pmc.reclassify = m
  have written (b : ActId) : ((Table.of m.writtenChan).look b).Bounded := by
    rw [Table.look_of]
    exact writtenChan_bounded m b
  exact ⟨_, _, settledChans_bounded _ written a, rfl⟩

theorem State.completeStartUp_demands (a : ActId) : (s.completeStartUp kind).plant.demands.look a = [] :=
  Table.look_all ([] : List Demand) a

theorem State.completeStartUp_ctx (z : ZoneId) : (s.completeStartUp kind).site.works.ctx z = none :=
  Table.look_all (none : Option Ctx) z

theorem State.completeStartUp_targetsFollow : (s.completeStartUp kind).plant.TargetsFollow := by
  refine Plant.targetsFollow_iff.mpr fun a => ?_
  obtain ⟨c, i, bounded, look⟩ := s.completeStartUp_look kind a
  obtain ⟨config, follows⟩ := c.derive_config i
  refine ⟨?_, fun e he => ?_, ?_⟩
  · rw [look, config]
    exact bounded
  · rw [s.completeStartUp_demands kind a] at he
    cases he
  · rw [Plant.resolved, s.completeStartUp_demands kind a, look]
    exact follows

theorem State.completeStartUp_demandsRight : (s.completeStartUp kind).site.DemandsRight := by
  have none (z : ZoneId) (c : Ctx) : (s.completeStartUp kind).site.works.ctx z ≠ some c := by
    rw [s.completeStartUp_ctx kind z]; simp
  have empty (a : ActId) : (s.completeStartUp kind).site.works.plant.demands.look a = [] := s.completeStartUp_demands kind a
  refine ⟨fun a => ?_, fun a => ?_, fun a e he => ?_, fun z c hc => absurd hc (none z c), fun z c hc => absurd hc (none z c),
    fun z c hc => absurd hc (none z c)⟩
  · rw [empty a]; exact .nil
  · rw [empty a]; exact .nil
  · rw [empty a] at he; cases he

end

/-! ### Every step -/

/-- What a step can do: it leaves the demand lists right, or it leads into or goes on in a start-up operation, or it ends one. -/
def State.Moves (s t : State) : Prop :=
  s.Resolves t ∨ (t.mode ≠ .running ∧ Works.Proceeds s.site.works t.site.works) ∨ ∃ kind u, t = State.completeStartUp kind u

theorem exec_moves {i : Instr} {s s' t : State} (e : exec i s' = .next t) (hm : s'.mode = s.mode) (hs : s'.site = s.site) :
    s.Moves t := by
  have same : s.Resolves s' := .of_same hm hs
  by_cases hr : s'.mode = .running
  · obtain ⟨u, eu, h⟩ := exec_resolves s' i hr
    obtain rfl : t = u := Host.Outcome.next.inj (e.symm.trans eu)
    exact h.elim (fun h => .inl (same.trans h)) fun ⟨k, p⟩ => .inr (.inl ⟨k, same.site.proceeds.trans p⟩)
  · obtain ⟨u, eu, h⟩ := exec_proceeds_of_starting s' i hr
    obtain rfl : t = u := Host.Outcome.next.inj (e.symm.trans eu)
    exact .inr (h.imp (fun ⟨k, p⟩ => ⟨k, same.site.proceeds.trans p⟩) fun ⟨kind, k⟩ => ⟨kind, s', k⟩)

theorem State.samplePass_resolves (s : State) : s.Resolves s.samplePass := by
  unfold State.samplePass
  split
  · exact .of_same rfl rfl
  · refine ⟨s.sample_mode, ?_⟩
    unfold State.sample
    exact Works.Goes.resolves (.plant s.site.works _ (.of_same rfl rfl))

theorem State.tick_resolves (s : State) : s.Resolves s.tick := by
  unfold State.tick
  dsimp only
  refine State.Resolves.trans ?_ (State.samplePass_resolves _)
  have reached := s.reach_resolves (s.now + 1)
  split
  · exact reached.trans (.of_same rfl rfl)
  · exact reached

theorem idle_moves {s t : State} (e : idle s = .next t) : s.Moves t := by
  unfold idle at e
  split at e
  · split at e
    · exact exec_moves e rfl rfl
    · obtain rfl := Host.Outcome.next.inj e
      exact .inl s.tick_resolves
  · rename_i kind held elapsed _
    split at e
    · exact exec_moves e rfl rfl
    · obtain rfl := Host.Outcome.next.inj e
      have sampled := State.samplePass_resolves { s with mode := .startUp kind held (if held then elapsed else elapsed + 1) }
      exact .inr (.inl ⟨by rw [sampled.mode]; simp, sampled.site.proceeds⟩)

theorem step_moves {s t : State} (e : step s = .next t) : s.Moves t := by
  unfold step at e
  split at e
  · exact exec_moves e rfl rfl
  · exact idle_moves e

/-- Settles O10: a step moves no target but by a changed list, which hands on its resolved demand. -/
theorem everyStepKeepsTheTargetsResolved : Obligations.EveryStepKeepsTheTargetsResolved := by
  intro s t h e ht
  obtain resolves | ⟨starting, -⟩ | ⟨kind, u, rfl⟩ := step_moves e
  · exact resolves.site.proceeds.targetsFollow (h (resolves.mode ▸ ht))
  · exact absurd ht starting
  · exact u.completeStartUp_targetsFollow kind

/-- Settles O9: a step changes the lists by the entries of the zones that execute and those asked for, each in its place under the
fire order as it stands. -/
theorem everyStepKeepsTheDemandListsInOrder : Obligations.EveryStepKeepsTheDemandListsInOrder := by
  refine ⟨fun s t h e => ?_, fun s t hz hd e ht => ?_⟩
  · obtain resolves | ⟨-, proceeds⟩ | ⟨kind, u, rfl⟩ := step_moves e
    · exact resolves.site.proceeds.oneEach h
    · exact proceeds.oneEach h
    · exact (u.completeStartUp_demandsRight kind).once
  · obtain resolves | ⟨starting, -⟩ | ⟨kind, u, rfl⟩ := step_moves e
    · have hr : s.mode = .running := resolves.mode ▸ ht
      have fair := Site.fair_of_demandsRight ((s.site.consistent_iff).mp (hz hr)).1 (hd hr)
      exact (resolves.site.fair fair).demandsRight
    · exact absurd ht starting
    · exact u.completeStartUp_demandsRight kind

end Sys2Proof.Machine
end

section
/-!
SUPPORT. The outputs of the channels follow their states (R65, R85, R94, R95): every operation of the fans, the start queue, the air
balance and the dampers keeps them so.
-/

namespace Sys2Proof.Machine

/-- Every drive is the one its target calls for, every run output goes by its fan's state, and a speed with it. -/
def Plant.OutputsFollow (x : Plant) : Prop := ∀ a, (x.chans.look a).outputsFollow = true

theorem State.outputsFollow_iff (s : State) : s.OutputsFollow ↔ (s.mode = .running → s.plant.OutputsFollow) := Iff.rfl

/-! ### One channel -/

theorem Damper.outputsFollow_iff (d : Damper) :
    (Channel.damper d).outputsFollow = true ↔ d.drive = d.cfg.driveFor d.target := by
  simp [Channel.outputsFollow, DamperCfg.driveFor]

theorem Fan.outputsFollow_iff (f : Fan) : (Channel.fan f).outputsFollow = true
    ↔ f.run = f.state.energized ∧ (f.state.energized = false → f.present = 0 ∧ f.applied = 0) := by
  cases h : f.run <;> cases k : f.state.energized <;> simp [Channel.outputsFollow, h, k]

/-- A fan with its run output off stands at speed 0, and may be in any state that is not energized. -/
theorem Fan.outputsFollow_of_off {f : Fan} (hr : f.run = false) (hp : f.present = 0) (ha : f.applied = 0)
    (hs : f.state.energized = false) : (Channel.fan f).outputsFollow = true :=
  f.outputsFollow_iff.mpr ⟨hr.trans hs.symm, fun _ => ⟨hp, ha⟩⟩

theorem Fan.outputsFollow_of_on {f : Fan} (hr : f.run = true) (hs : f.state.energized = true) :
    (Channel.fan f).outputsFollow = true :=
  f.outputsFollow_iff.mpr ⟨hr.trans hs.symm, fun h => absurd (hs.symm.trans h) (by simp)⟩

/-- The fan is in no energized state: its run output is off. -/
def Plant.OffAt (x : Plant) (a : ActId) : Prop := ∀ f, x.chans.look a = .fan f → f.state.energized = false

/-- The fan is in an energized state: its run output is on. -/
def Plant.OnAt (x : Plant) (a : ActId) : Prop := ∀ f, x.chans.look a = .fan f → f.state.energized = true

theorem Plant.offAt_of_look {x : Plant} {a : ActId} {f : Fan} (h : x.chans.look a = .fan f) (hs : f.state.energized = false) :
    x.OffAt a := fun r hr => by
  rw [← Channel.fan.inj (h.symm.trans hr)]
  exact hs

theorem Plant.onAt_of_look {x : Plant} {a : ActId} {f : Fan} (h : x.chans.look a = .fan f) (hs : f.state.energized = true) :
    x.OnAt a := fun r hr => by
  rw [← Channel.fan.inj (h.symm.trans hr)]
  exact hs

theorem Plant.OutputsFollow.of_chans {x y : Plant} (hx : x.OutputsFollow) (h : y.chans = x.chans := by rfl) :
    y.OutputsFollow := fun a => by
  rw [h]; exact hx a

theorem Plant.OutputsFollow.foldl {α : Type} {g : Plant → α → Plant} (hg : ∀ x a, x.OutputsFollow → (g x a).OutputsFollow)
    (l : List α) {x : Plant} (hx : x.OutputsFollow) : (l.foldl g x).OutputsFollow := by
  induction l generalizing x with
  | nil => exact hx
  | cons a l ih => exact ih (hg x a hx)

section
variable {x : Plant} (hx : x.OutputsFollow) (a : ActId)
include hx

theorem Plant.OutputsFollow.setChan {c : Channel} (hc : c.outputsFollow = true) : (x.setChan a c).OutputsFollow := fun b => by
  rw [Plant.setChan_chans, Table.look_put]
  split
  · exact hc
  · exact hx b

theorem Plant.OutputsFollow.modFan {g : Fan → Fan}
    (hg : ∀ f, x.chans.look a = .fan f → (Channel.fan f).outputsFollow = true → (Channel.fan (g f)).outputsFollow = true) :
    (x.modFan a g).OutputsFollow := by
  unfold Plant.modFan
  split
  case h_1 f hf => exact hx.setChan a (hg f hf (hf ▸ hx a))
  case h_2 => exact hx

theorem Plant.OutputsFollow.fanEnter {st : FanState} {g : Fan → Fan}
    (hg : ∀ f, x.chans.look a = .fan f → (Channel.fan f).outputsFollow = true →
      (Channel.fan { g f with state := st }).outputsFollow = true) : (x.fanEnter a st g).OutputsFollow := by
  have entered := hx.modFan a (g := fun f => { g f with state := st }) hg
  unfold Plant.fanEnter
  split
  · dsimp only
    split
    · exact entered.of_chans
    · exact entered.of_chans
  · exact hx

/-- A fan that is not energized goes on to a state that is not. -/
theorem Plant.OutputsFollow.fanEnter_off {st : FanState} {g : Fan → Fan} (off : x.OffAt a)
    (hs : st.energized = false := by rfl)
    (hg : ∀ f, (g f).run = f.run ∧ (g f).present = f.present ∧ (g f).applied = f.applied := by intro f; exact ⟨rfl, rfl, rfl⟩) :
    (x.fanEnter a st g).OutputsFollow := by
  refine hx.fanEnter a fun f hf hf' => ?_
  obtain ⟨run, present, applied⟩ := hg f
  obtain ⟨out, still⟩ := f.outputsFollow_iff.mp hf'
  obtain ⟨present', applied'⟩ := still (off f hf)
  exact Fan.outputsFollow_of_off (run.trans (out.trans (off f hf))) (present.trans present') (applied.trans applied') hs

/-- An energized fan goes on to an energized state. -/
theorem Plant.OutputsFollow.fanEnter_on {st : FanState} {g : Fan → Fan} (on : x.OnAt a)
    (hs : st.energized = true := by rfl) (hg : ∀ f, (g f).run = f.run := by intro f; rfl) :
    (x.fanEnter a st g).OutputsFollow :=
  hx.fanEnter a fun f hf hf' =>
    Fan.outputsFollow_of_on ((hg f).trans ((f.outputsFollow_iff.mp hf').1.trans (on f hf))) hs

/-- A fan enters STOPPING with its run output off (R92), whatever its state was. -/
theorem Plant.OutputsFollow.fanEnter_stopping {g : Fan → Fan}
    (hg : ∀ f, (g f).run = false ∧ (g f).present = 0 ∧ (g f).applied = 0 := by intro f; exact ⟨rfl, rfl, rfl⟩) :
    (x.fanEnter a .stopping g).OutputsFollow :=
  hx.fanEnter a fun f _ _ => Fan.outputsFollow_of_off (hg f).1 (hg f).2.1 (hg f).2.2 rfl

theorem Plant.OutputsFollow.selfApplied : (x.selfApplied a).OutputsFollow := by
  unfold Plant.selfApplied
  split
  case h_2 => exact hx
  case h_1 f hf =>
    have look := (x.fan?_eq_some a).mp hf
    split
    case isTrue off =>
      refine hx.modFan a fun r hr hr' => ?_
      obtain rfl : f = r := Channel.fan.inj (look.symm.trans hr)
      obtain ⟨run, still⟩ := f.outputsFollow_iff.mp hr'
      have off : f.state.energized = false := by simpa [Fan.energized] using off
      exact Fan.outputsFollow_of_off (run.trans off) (still off).1 rfl off
    case isFalse on =>
      have on : f.state.energized = true := by simpa [Fan.energized] using on
      split
      · refine hx.modFan a fun r hr hr' => ?_
        obtain rfl : f = r := Channel.fan.inj (look.symm.trans hr)
        exact Fan.outputsFollow_of_on ((f.outputsFollow_iff.mp hr').1.trans on) on
      · exact hx

end

section
variable (x : Plant) (a b : ActId)

theorem Plant.joinQueue_chans : (x.joinQueue a).chans = x.chans := by unfold Plant.joinQueue; split <;> rfl

theorem Plant.joinHistory_chans : (x.joinHistory a).chans = x.chans := by
  unfold Plant.joinHistory
  split
  · split <;> rfl
  · rfl

theorem Plant.leaveHistory_chans : (x.leaveHistory a).chans = x.chans := by
  unfold Plant.leaveHistory
  split
  · split <;> rfl
  · rfl

theorem Plant.refresh_chans (g : GroupId) : (x.refresh g).chans = x.chans := rfl

/-- A channel that is no fan enters no state. -/
theorem Plant.fanEnter_of_other (h : ∀ f, x.chans.look a ≠ .fan f) (st : FanState) (g : Fan → Fan) : x.fanEnter a st g = x := by
  unfold Plant.fanEnter
  split
  case h_1 f hf => exact absurd ((x.fan?_eq_some a).mp hf) (h f)
  case h_2 => rfl

/-- A fan that has entered a state stands in it. -/
theorem Plant.fanEnter_state {st : FanState} {g : Fan → Fan} {r : Fan} (h : (x.fanEnter a st g).chans.look a = .fan r) :
    r.state = st := by
  cases hf : x.chans.look a with
  | fan f =>
    rw [Plant.fanEnter_look hf] at h
    rw [← Channel.fan.inj h]
  | _ =>
    rw [x.fanEnter_of_other a (by simp [hf]), hf] at h
    cases h

end

/-! ### Operations that may look for a grant -/

section
variable {walk : Plant → Plant} (hw : ∀ y : Plant, y.OutputsFollow → (walk y).OutputsFollow)
variable {x : Plant} (hx : x.OutputsFollow) (a : ActId)
include hw hx

theorem Plant.OutputsFollow.startPath (off : x.OffAt a) : (x.startPath walk a).OutputsFollow := by
  unfold Plant.startPath
  split
  · split
    · have waits := hx.fanEnter_off a (st := .waitPermit) (g := id) off
      exact hw _ (waits.of_chans (Plant.joinQueue_chans ..))
    · have waits := hx.fanEnter_off a (st := .waitInterlock) (g := id) off
      exact waits.of_chans
  · exact hx

/-- A stop ends at a fan that is not energized (R92). -/
theorem Plant.OutputsFollow.completeStop (off : x.OffAt a) : (x.completeStop walk a).OutputsFollow := by
  unfold Plant.completeStop
  split
  · have stopped := hx.fanEnter_off a (st := .stopped) (g := fun f => { f with runDownTimer := none, stopCause := none }) off
    dsimp only
    split
    · exact stopped.of_chans
    · refine Plant.OutputsFollow.startPath hw stopped.of_chans a fun r hr => ?_
      rw [x.fanEnter_state a hr]
      rfl
  · exact hx

/-- A shed fan enters STOPPING (R108). -/
theorem Plant.OutputsFollow.shed (g : GroupId) : (x.shed walk g a).OutputsFollow := by
  have stopping : (x.report .fanShed (some (.actuator a)) (some (.fan .stopping))
      (some (.capacity ((x.figs.look g).available / 1000)))).OutputsFollow := hx.of_chans
  have entered := stopping.fanEnter_stopping a
    (g := fun f => { f.stopRecord x.now (x.proofPresent a) .shed with requeue := true })
  have left := entered.of_chans (Plant.leaveHistory_chans _ a)
  unfold Plant.shed
  dsimp only
  split
  · exact left.of_chans
  · refine Plant.OutputsFollow.completeStop hw (left.of_chans (Plant.refresh_chans ..)) a fun r hr => ?_
    rw [Plant.refresh_chans, Plant.leaveHistory_chans] at hr
    rw [Plant.fanEnter_state _ a hr]
    rfl

theorem Plant.OutputsFollow.shedAll (g : GroupId) : (x.shedAll walk g).OutputsFollow := by
  refine Plant.OutputsFollow.foldl (fun y a hy => ?_) _ hx
  dsimp only
  split
  · exact hy.shed hw a g
  · exact hy

end

/-- Every fan of a scaled set is energized (R103). -/
theorem Plant.onAt_of_mem_scaledFans {x : Plant} {g : GroupId} {f : ScaledFan} (h : f ∈ x.scaledFans g) : x.OnAt f.fan := by
  obtain ⟨a, ha, e⟩ := List.mem_filterMap.mp h
  obtain ⟨r, hr, rfl⟩ := Option.map_eq_some_iff.mp e
  intro k hk
  obtain rfl : r = k := Channel.fan.inj (((x.fan?_eq_some a).mp hr).symm.trans hk)
  have member := (List.mem_filter.mp ha).2
  unfold Plant.inSet at member
  rw [hr] at member
  simp only [Bool.and_eq_true] at member
  exact member.1.2

/-- A change of a fan's record that leaves its state leaves the energized fans energized. -/
theorem Plant.OnAt.modFan {x : Plant} {b : ActId} (h : x.OnAt b) (a : ActId) {g : Fan → Fan}
    (hg : ∀ f, (g f).state = f.state := by intro f; rfl) : (x.modFan a g).OnAt b := by
  intro r hr
  unfold Plant.modFan at hr
  split at hr
  case h_1 f hf =>
    rw [Plant.setChan_chans, Table.look_put] at hr
    split at hr
    case isTrue e =>
      rw [← Channel.fan.inj hr, hg]
      exact h f (e ▸ hf)
    case isFalse => exact h r hr
  case h_2 => exact h r hr

/-- The applied speeds go to energized fans (R109, R111). -/
theorem Plant.OutputsFollow.handSpeeds {x : Plant} (hx : x.OutputsFollow) (g : GroupId) : (x.handSpeeds g).OutputsFollow := by
  have on : ∀ p ∈ allocate (x.scaledFans g) (x.figs.look g).available, x.OnAt p.1 := fun p hp => by
    obtain ⟨f, hf, e⟩ := allocate_fan _ _ hp
    exact e ▸ Plant.onAt_of_mem_scaledFans hf
  unfold Plant.handSpeeds
  revert on
  generalize allocate (x.scaledFans g) (x.figs.look g).available = l
  induction l generalizing x with
  | nil => exact fun _ => hx
  | cons p l ih =>
    intro on
    have given := hx.modFan p.1 (g := fun f => { f with applied := p.2 }) fun f hf hf' =>
      have energized := on p List.mem_cons_self f hf
      Fan.outputsFollow_of_on ((f.outputsFollow_iff.mp hf').1.trans energized) energized
    exact ih given fun q hq => (on q (List.mem_cons_of_mem _ hq)).modFan p.1

section
variable {walk : Plant → Plant} (hw : ∀ y : Plant, y.OutputsFollow → (walk y).OutputsFollow)
variable {x : Plant} (hx : x.OutputsFollow) (a : ActId)
include hw hx

theorem Plant.OutputsFollow.evaluate (g : GroupId) : (x.evaluate walk g).OutputsFollow := by
  have fresh := hx.of_chans (x.refresh_chans g)
  have allocated := (fresh.shedAll hw g).handSpeeds g
  unfold Plant.evaluate
  dsimp only
  split
  · exact fresh
  · split
    · exact allocated
    · exact hw _ allocated

theorem Plant.OutputsFollow.fanTouched : (x.fanTouched walk a).OutputsFollow := by
  have applied := hx.selfApplied a
  unfold Plant.fanTouched
  dsimp only
  split
  · exact applied.evaluate hw _
  · exact applied

end

section
variable {x : Plant} (hx : x.OutputsFollow) (a : ActId)
include hx

/-- A fan that is energized with its run output on becomes RUNNING (R90). -/
theorem Plant.OutputsFollow.becomeRunning (on : x.OnAt a) : (x.becomeRunning a).OutputsFollow :=
  (hx.fanEnter_on a (st := .running) (g := fun f => { f with proofTimer := none, faultCause := none }) on).of_chans

/-- A grant puts the run output on with STARTING (R89). -/
theorem Plant.OutputsFollow.grant : (x.grant a).OutputsFollow := by
  have queued : (({ x with stagger := some (x.now + x.staggerInterval * 1000) } : Plant).leaveQueue a).OutputsFollow :=
    hx.of_chans
  have starting := queued.fanEnter a (st := .starting) (g := fun f =>
    { f with
      run := true, present := f.cfg.minSpeed, proofTimer := some (x.now + f.cfg.proofTime * 1000), requeue := false })
    fun _ _ _ => Fan.outputsFollow_of_on rfl rfl
  have joined := starting.of_chans (Plant.joinHistory_chans _ a)
  have reported : ((Plant.joinHistory _ a).reportFan a .starting .grant).OutputsFollow := joined.of_chans
  have touched := reported.fanTouched (walk := id) (fun _ h => h) a
  unfold Plant.grant
  dsimp only
  split
  case h_2 => exact touched
  case h_1 f hf =>
    split
    case isFalse => exact touched
    case isTrue proven =>
      have state : f.state = .starting := by simpa using (Bool.and_eq_true_iff.mp proven).2
      exact touched.becomeRunning a (Plant.onAt_of_look ((Plant.fan?_eq_some _ a).mp hf) (by rw [state]; rfl))

theorem Plant.OutputsFollow.walk : x.walk.OutputsFollow := by
  unfold Plant.walk
  split
  · exact hx
  · split
    · exact hx.grant _
    · exact hx

end

/-! ### A stop (R88, R92) -/

/-- The cause of a stop: a broken path, or a target of OFF (R88, R92). -/
def stopCauseOf (broken : Option ActId) : StopCause := if broken.isSome then .interlock else .command

/-- The channel side with fan `a` in STOPPING, reported, out of the grant history and its group evaluated, before a stop that
completes at once (R92). -/
def Plant.stopBegun (x : Plant) (a : ActId) (broken : Option ActId) : Plant :=
  let y := x.fanEnter a .stopping (Fan.stopRecord x.now (x.proofPresent a) (stopCauseOf broken))
  let y := match broken with
    | some d => y.report .interlockTrip (some (.actuator a)) (some (.fan .stopping)) (some (.actuator d))
    | none => y.reportFan a .stopping .command
  (y.leaveHistory a).fanTouched Plant.walk a

section
variable (x : Plant) (a : ActId) (broken : Option ActId)

/-- Without proof the stop completes at once (R92). -/
theorem Plant.enterStopping_eq : x.enterStopping Plant.walk a broken =
    if x.proofPresent a then x.stopBegun a broken else (x.stopBegun a broken).completeStop Plant.walk a := rfl

/-- The channels as the fan has entered STOPPING, before its group is evaluated. -/
theorem Plant.stopBegun_eq : ∃ y : Plant, x.stopBegun a broken = y.fanTouched Plant.walk a
    ∧ y.chans = (x.fanEnter a .stopping (Fan.stopRecord x.now (x.proofPresent a) (stopCauseOf broken))).chans := by
  cases broken <;> exact ⟨_, rfl, Plant.leaveHistory_chans ..⟩

/-- The evaluation leaves the stopping fan alone (R92, R105). -/
theorem Plant.stopBegun_look {f : Fan} (h : x.chans.look a = .fan f) : (x.stopBegun a broken).chans.look a =
    .fan { f.stopRecord x.now (x.proofPresent a) (stopCauseOf broken) with state := .stopping } := by
  obtain ⟨y, begun, entered⟩ := x.stopBegun_eq a broken
  rw [begun]
  exact Plant.fanTouched_of_rests (by rw [entered, Plant.fanEnter_look h]) rfl rfl

theorem Plant.OutputsFollow.enterStopping {x : Plant} (hx : x.OutputsFollow) {f : Fan} (h : x.chans.look a = .fan f) :
    (x.enterStopping Plant.walk a broken).OutputsFollow := by
  have begun : (x.stopBegun a broken).OutputsFollow := by
    obtain ⟨y, begun, entered⟩ := x.stopBegun_eq a broken
    rw [begun]
    refine Plant.OutputsFollow.fanTouched (fun _ h => h.walk) (Plant.OutputsFollow.of_chans ?_ entered) a
    exact hx.fanEnter_stopping a
  rw [Plant.enterStopping_eq]
  split
  · exact begun
  · exact begun.completeStop (fun _ h => h.walk) a (Plant.offAt_of_look (x.stopBegun_look a broken h) rfl)

end

/-! ### What the other blocks hand a fan -/

section
variable {x : Plant} (hx : x.OutputsFollow) (a : ActId)
include hx

theorem Plant.OutputsFollow.pathMade : (x.pathMade a).OutputsFollow := by
  unfold Plant.pathMade
  split
  case h_2 => exact hx
  case h_1 f hf =>
    split
    case isFalse => exact hx
    case isTrue h =>
      have off := Plant.offAt_of_look ((x.fan?_eq_some a).mp hf) (by rw [h.1]; rfl)
      have waits := hx.fanEnter_off a (st := .waitPermit) (g := id) off
      exact Plant.OutputsFollow.walk (waits.of_chans (Plant.joinQueue_chans ..))

theorem Plant.OutputsFollow.pathBroken (d : ActId) : (x.pathBroken a d).OutputsFollow := by
  unfold Plant.pathBroken
  split
  case h_2 => exact hx
  case h_1 f hf =>
    have look := (x.fan?_eq_some a).mp hf
    split
    · exact hx.enterStopping a _ look
    · split
      case isFalse => exact hx
      case isTrue h =>
        have left : (x.leaveQueue a).OutputsFollow := hx.of_chans
        have waits := left.fanEnter_off a (st := .waitInterlock) (g := id) (Plant.offAt_of_look look (by rw [h]; rfl))
        exact waits.of_chans

/-- A fan takes a target by its state (R86). -/
theorem Plant.OutputsFollow.fanTarget {f : Fan} (h : x.chans.look a = .fan f) (t : FanTarget) (c : ResolvedClass) :
    (x.fanTarget a t c).OutputsFollow := by
  have aimed : (x.setChan a (.fan (f.aimed t c))).OutputsFollow := hx.setChan a (show (Channel.fan f).outputsFollow = true from
    h ▸ hx a)
  have look : (x.setChan a (.fan (f.aimed t c))).chans.look a = .fan (f.aimed t c) := Table.look_put_same ..
  have energized (hs : f.state = .starting ∨ f.state = .running ∨ f.state = .runFault) :
      (x.fanTarget a t c).OutputsFollow := by
    rw [Plant.fanTarget_of_energized h t c hs]
    split
    · exact aimed.enterStopping a none look
    · split
      · exact aimed.fanTouched (fun _ h => h.walk) a
      · exact aimed
  cases hs : f.state with
  | stopped =>
    rw [Plant.fanTarget_of_stopped h t c hs]
    split
    · exact aimed.startPath (fun _ h => h.walk) a (Plant.offAt_of_look look (show f.state.energized = false by rw [hs]; rfl))
    · exact aimed
  | waitInterlock =>
    rw [Plant.fanTarget_of_waitInterlock h t c hs]
    split
    · have stopped := aimed.fanEnter_off a (st := .stopped) (g := id)
        (Plant.offAt_of_look look (show f.state.energized = false by rw [hs]; rfl))
      exact stopped.of_chans
    · exact aimed
  | waitPermit =>
    rw [Plant.fanTarget_of_waitPermit h t c hs]
    split
    · have left : ((x.setChan a (.fan (f.aimed t c))).leaveQueue a).OutputsFollow := aimed.of_chans
      have stopped := left.fanEnter_off a (st := .stopped) (g := id)
        (Plant.offAt_of_look look (show f.state.energized = false by rw [hs]; rfl))
      exact stopped.of_chans
    · split
      · exact aimed.walk
      · exact aimed
  | starting => exact energized (.inl hs)
  | running => exact energized (.inr (.inl hs))
  | runFault => exact energized (.inr (.inr hs))
  | stopping =>
    rw [Plant.fanTarget_of_stopping h t c (.inl hs)]
    exact aimed
  | stopFault =>
    rw [Plant.fanTarget_of_stopping h t c (.inr hs)]
    exact aimed

/-! ### Dampers -/

theorem Plant.OutputsFollow.handOpenness (was is : DamperState) (cfg : DamperCfg) :
    (x.handOpenness a was is cfg).OutputsFollow := by
  have handed : (if is = .atOpen then (x.fansThrough a).foldl Plant.pathMade x
      else (x.fansThrough a).foldl (fun y f => y.pathBroken f a) x).OutputsFollow := by
    split
    · exact Plant.OutputsFollow.foldl (fun _ f hy => hy.pathMade f) _ hx
    · exact Plant.OutputsFollow.foldl (fun _ f hy => hy.pathBroken f a) _ hx
  unfold Plant.handOpenness
  split
  · exact hx
  · dsimp only
    split
    · exact handed.evaluate (fun _ h => h.walk) _
    · exact handed

/-- A damper's new record has the drive that its target calls for. -/
theorem Plant.OutputsFollow.damperEnter (was : DamperState) {d : Damper} (k : ReportKind) (e : Option Detail)
    (hd : d.drive = d.cfg.driveFor d.target) : (x.damperEnter a was d k e).OutputsFollow := by
  have entered := hx.setChan a (d.outputsFollow_iff.mpr hd)
  unfold Plant.damperEnter
  dsimp only
  split
  · exact Plant.OutputsFollow.handOpenness entered.of_chans a _ _ _
  · exact Plant.OutputsFollow.handOpenness entered.of_chans a _ _ _

theorem Plant.OutputsFollow.drive {d : Damper} (h : x.chans.look a = .damper d) : d.drive = d.cfg.driveFor d.target :=
  d.outputsFollow_iff.mp (h ▸ hx a)

theorem Plant.OutputsFollow.damperTarget (p : DamperPos) : (x.damperTarget a p).OutputsFollow := by
  unfold Plant.damperTarget
  split
  case h_2 => exact hx
  case h_1 d _ =>
    split
    · exact hx
    · have aimed : (Channel.damper { d with target := p, drive := d.cfg.driveFor p }).outputsFollow = true :=
        (Damper.outputsFollow_iff _).mpr rfl
      dsimp only
      cases d.state with
      | switchFault => exact hx.setChan a aimed
      | atOpen | atClosed => exact hx.damperEnter a _ _ _ rfl
      | opening | closing | travelFault =>
        dsimp only
        split
        · exact hx.damperEnter a _ _ _ rfl
        · exact hx.damperEnter a _ _ _ rfl

/-! ### Demands -/

theorem Plant.OutputsFollow.channelTakes (r : Resolved) : (x.channelTakes a r).OutputsFollow := by
  unfold Plant.channelTakes
  split
  · exact hx.damperTarget a _
  · rename_i t _
    cases h : x.fan? a with
    | some f => exact hx.fanTarget a ((x.fan?_eq_some a).mp h) t r.cls
    | none =>
      unfold Plant.fanTarget
      rw [h]
      exact hx

/-- A changed demand list and all that it hands on (R49). -/
theorem Plant.OutputsFollow.setDemands (l : List Demand) : (x.setDemands a l).OutputsFollow := by
  have listed : ({ x with demands := x.demands.put a l } : Plant).OutputsFollow := hx.of_chans
  unfold Plant.setDemands
  dsimp only
  split
  · split
    · exact listed
    · unfold Plant.handOff
      dsimp only
      split
      · exact (listed.channelTakes a _).of_chans
      · refine (Plant.OutputsFollow.channelTakes ?_ a _).of_chans
        exact listed.of_chans
  · exact listed

end

end Sys2Proof.Machine
end

section
/-!
SUPPORT. The events of the channels keep the outputs following the states: timers, switches, proof, CLEAR FAULT, the slew update and
the passing of the Timebase.
-/

namespace Sys2Proof.Machine

/-- A fan keeps its state as the Timebase passes. -/
theorem Plant.reach_fan_state {x : Plant} {a : ActId} {f : Fan} (h : x.chans.look a = .fan f) (d : Nat) :
    ∃ r, (x.reach d).chans.look a = .fan r ∧ r.state = f.state := by
  obtain e | e := x.reach_look d a
  · exact ⟨f, e.trans h, rfl⟩
  · rw [h] at e
    exact ⟨_, e, rfl⟩

section
variable {x : Plant} (hx : x.OutputsFollow) (a : ActId)
include hx

/-! ### The Timebase and the slew update -/

/-- Every channel changed alike keeps its outputs where the change does. -/
theorem Plant.OutputsFollow.map {g : Channel → Channel} (hg : ∀ c, c.outputsFollow = true → (g c).outputsFollow = true) :
    ({ x with chans := x.chans.map g } : Plant).OutputsFollow := fun a => by
  rw [Table.look_map]
  exact hg _ (hx a)

theorem Plant.OutputsFollow.reach (d : Nat) : (x.reach d).OutputsFollow := by
  have duty : ({ x with chans := x.chansAt (max x.now d) } : Plant).OutputsFollow := by
    unfold Plant.chansAt
    split
    · exact hx.map fun c hc => by cases c <;> exact hc
    · exact hx
  exact duty.of_chans

/-- A slew update moves the speed of RUNNING fans alone, whose run output is on (R94). -/
theorem Plant.OutputsFollow.slewUpdate : x.slewUpdate.OutputsFollow :=
  hx.map fun c hc => by
    cases c with
    | fan f =>
      unfold Channel.slew
      dsimp only
      split
      case isTrue running =>
        have on : f.state.energized = true := by rw [running]; rfl
        exact Fan.outputsFollow_of_on ((f.outputsFollow_iff.mp hc).1.trans on) on
      case isFalse => exact hc
    | _ => exact hc

/-! ### Dampers -/

theorem Plant.OutputsFollow.arrive {d : Damper} (h : d.drive = d.cfg.driveFor d.target) (k : ReportKind) :
    (x.arrive a d k).OutputsFollow :=
  (hx.of_chans (Plant.capture_chans ..)).damperEnter a _ _ _ h

/-- A damper acts on its switches with drive and target kept (R70 to R73, R75). -/
theorem Plant.OutputsFollow.damperSwitch {d : Damper} (h : d.drive = d.cfg.driveFor d.target) :
    (x.damperSwitch a d).OutputsFollow := by
  have faulted : (x.enterSwitchFault a d).OutputsFollow := hx.damperEnter a _ _ _ h
  have arrived (k : ReportKind) : (x.arrive a d k).OutputsFollow := hx.arrive a h k
  unfold Plant.damperSwitch
  dsimp only
  cases d.state with
  | opening | closing | travelFault =>
    dsimp only
    split
    · exact arrived _
    · split
      · exact faulted
      · exact hx
  | atOpen | atClosed =>
    dsimp only
    split
    · exact faulted
    · split
      · exact hx
      · exact hx.damperEnter a _ _ _ h
  | switchFault =>
    dsimp only
    split
    · exact hx
    · split
      · exact hx.damperEnter a _ _ _ h
      · exact hx.damperEnter a _ _ _ h

theorem Plant.OutputsFollow.switchChange (o c : Bool) : (x.switchChange a o c).OutputsFollow := by
  have switched : (x.setSwitches a o c).OutputsFollow := hx.of_chans
  unfold Plant.switchChange
  dsimp only
  split
  case h_1 => exact switched
  case h_2 => exact hx
  case h_3 d hd =>
    split
    · exact hx
    · exact switched.damperSwitch a (hx.drive a hd)

theorem Plant.OutputsFollow.travelExpiry : (x.travelExpiry a).OutputsFollow := by
  unfold Plant.travelExpiry
  split
  case h_2 => exact hx
  case h_1 d hd =>
    have drive := hx.drive a ((x.damper?_eq_some a).mp hd)
    split
    · split
      · exact (hx.reach _).damperEnter a _ _ _ drive
      · exact hx
    · exact hx

theorem Plant.OutputsFollow.clearDamper : (x.clearDamper a).OutputsFollow := by
  unfold Plant.clearDamper
  split
  case h_2 => exact hx
  case h_1 d hd =>
    split
    · have drive := hx.drive a ((x.damper?_eq_some a).mp hd)
      exact hx.damperEnter a _ _ _ drive
    · exact hx

/-! ### Fans -/

theorem Plant.OutputsFollow.clearFan : (x.clearFan a).OutputsFollow := by
  unfold Plant.clearFan
  split
  case h_2 => exact hx
  case h_1 f hf =>
    have look := (x.fan?_eq_some a).mp hf
    split
    case h_1 hs =>
      have starting := hx.fanEnter_on a (st := .starting) (g := fun f =>
        { f with faultCause := none, present := f.cfg.minSpeed, proofTimer := some (x.now + f.cfg.proofTime * 1000) })
        (Plant.onAt_of_look look (by rw [hs]; rfl))
      exact starting.of_chans
    case h_2 hs =>
      have stopping := hx.fanEnter_off a (st := .stopping)
        (g := fun f => { f with runDownTimer := some (x.now + f.cfg.runDown * 1000) })
        (Plant.offAt_of_look look (by rw [hs]; rfl))
      exact stopping.of_chans
    case h_3 => exact hx

theorem Plant.OutputsFollow.setProof (v : Bool) : (x.setProof a v).OutputsFollow := hx.of_chans

theorem Plant.OutputsFollow.proofArrives : (x.proofArrives a).OutputsFollow := by
  unfold Plant.proofArrives
  split
  case h_1 => exact hx
  case h_2 => exact hx.setProof a true
  case h_3 f hf =>
    split
    · exact hx
    · split
      case isTrue hs =>
        refine (hx.setProof a true).becomeRunning a (Plant.onAt_of_look hf ?_)
        obtain hs | hs := hs <;> rw [hs] <;> rfl
      case isFalse => exact hx.setProof a true

theorem Plant.OutputsFollow.proofLost : (x.proofLost a).OutputsFollow := by
  unfold Plant.proofLost
  split
  case h_1 => exact hx
  case h_2 => exact hx.setProof a false
  case h_3 f hf =>
    have lost := hx.setProof a false
    have look : (x.setProof a false).chans.look a = .fan f := hf
    split
    · exact hx
    · dsimp only
      split
      case h_1 hs =>
        have fault := lost.fanEnter_on a (st := .runFault) (g := fun f => { f with faultCause := some .proofLost })
          (Plant.onAt_of_look look (by rw [hs]; rfl))
        exact fault.of_chans
      case h_2 hs => exact lost.completeStop (fun _ h => h.walk) a (Plant.offAt_of_look look (by rw [hs]; rfl))
      case h_3 hs => exact lost.completeStop (fun _ h => h.walk) a (Plant.offAt_of_look look (by rw [hs]; rfl))
      case h_4 => exact lost

theorem Plant.OutputsFollow.proofExpiry : (x.proofExpiry a).OutputsFollow := by
  unfold Plant.proofExpiry
  split
  case h_2 => exact hx
  case h_1 f hf =>
    split
    case h_2 => exact hx
    case h_1 d hs _ =>
      obtain ⟨r, look, state⟩ := Plant.reach_fan_state ((x.fan?_eq_some a).mp hf) d
      have fault := (hx.reach d).fanEnter_on a (st := .runFault)
        (g := fun f => { f with proofTimer := none, faultCause := some .noProof })
        (Plant.onAt_of_look look (by rw [state, hs]; rfl))
      exact fault.of_chans

theorem Plant.OutputsFollow.runDownExpiry : (x.runDownExpiry a).OutputsFollow := by
  unfold Plant.runDownExpiry
  split
  case h_2 => exact hx
  case h_1 f hf =>
    split
    case h_2 => exact hx
    case h_1 d hs _ =>
      obtain ⟨r, look, state⟩ := Plant.reach_fan_state ((x.fan?_eq_some a).mp hf) d
      have fault := (hx.reach d).fanEnter_off a (st := .stopFault) (g := fun f => { f with runDownTimer := none })
        (Plant.offAt_of_look look (by rw [state, hs]; rfl))
      exact fault.of_chans

theorem Plant.OutputsFollow.staggerExpiry : x.staggerExpiry.OutputsFollow := by
  unfold Plant.staggerExpiry
  split
  case h_2 => exact hx
  case h_1 d _ => exact Plant.OutputsFollow.walk (hx.reach d).of_chans

end

end Sys2Proof.Machine
end

section
/-!
SUPPORT. What the rest of the 6408 does to the channel side: every command comes to it by a chain of the channel side's own
operations (`Plant.Acts`), so that what each of these keeps every step keeps.
-/

namespace Sys2Proof.Machine

/-- From `x` to `y` the channel side has been acted on by the operations that commands bring while the 6408 runs. -/
inductive Plant.Acts : Plant → Plant → Prop
  | refl (x : Plant) : Acts x x
  | trans {x y z : Plant} (h : Acts x y) (i : Acts y z) : Acts x z
  | report (x : Plant) (k : ReportKind) (u : Option Subject) (n : Option NewState) (d : Option Detail) :
      Acts x (x.report k u n d)
  | reach (x : Plant) (t : Nat) : Acts x (x.reach t)
  | setDemands (x : Plant) (a : ActId) (l : List Demand) : Acts x (x.setDemands a l)
  | clearDamper (x : Plant) (a : ActId) : Acts x (x.clearDamper a)
  | clearFan (x : Plant) (a : ActId) : Acts x (x.clearFan a)
  | switchChange (x : Plant) (a : ActId) (o c : Bool) : Acts x (x.switchChange a o c)
  | travelExpiry (x : Plant) (a : ActId) : Acts x (x.travelExpiry a)
  | proofArrives (x : Plant) (a : ActId) : Acts x (x.proofArrives a)
  | proofLost (x : Plant) (a : ActId) : Acts x (x.proofLost a)
  | proofExpiry (x : Plant) (a : ActId) : Acts x (x.proofExpiry a)
  | runDownExpiry (x : Plant) (a : ActId) : Acts x (x.runDownExpiry a)
  | staggerExpiry (x : Plant) : Acts x x.staggerExpiry
  | slewUpdate (x : Plant) : Acts x x.slewUpdate
  | sampled (x : Plant) (inputs : Table ChanInputs 64) : Acts x { x with inputs }
  | dueTaken (x : Plant) : Acts x { x with pxDue := [] }
  | notesTaken (x : Plant) : Acts x { x with notes := [] }
  | ffRead (x : Plant) (n : Nat) : Acts x { x with ffReports := x.ffReports.afterRead n }
  | blRead (x : Plant) (n : Nat) : Acts x { x with blReports := x.blReports.afterRead n }

/-- Every operation on the channel side keeps the outputs following the states. -/
theorem Plant.Acts.outputsFollow {x y : Plant} (h : Plant.Acts x y) (hx : x.OutputsFollow) : y.OutputsFollow := by
  induction h with
  | refl => exact hx
  | trans _ _ ih ih' => exact ih' (ih hx)
  | reach x t => exact hx.reach t
  | setDemands x a l => exact hx.setDemands a l
  | clearDamper x a => exact hx.clearDamper a
  | clearFan x a => exact hx.clearFan a
  | switchChange x a o c => exact hx.switchChange a o c
  | travelExpiry x a => exact hx.travelExpiry a
  | proofArrives x a => exact hx.proofArrives a
  | proofLost x a => exact hx.proofLost a
  | proofExpiry x a => exact hx.proofExpiry a
  | runDownExpiry x a => exact hx.runDownExpiry a
  | staggerExpiry x => exact hx.staggerExpiry
  | slewUpdate x => exact hx.slewUpdate
  | report | sampled | dueTaken | notesTaken | ffRead | blRead => exact hx.of_chans

/-! ### The Plan Executor and the Test Sequencer -/

/-- From `w` to `v` the channel side is acted on, whatever becomes of contexts and tests. -/
def Works.Acts (w v : Works) : Prop := Plant.Acts w.plant v.plant

theorem Works.Acts.of_same {w v : Works} (h : v.plant = w.plant := by rfl) : Works.Acts w v := by
  rw [Works.Acts, h]
  exact .refl _

theorem Works.Acts.refl (w : Works) : Works.Acts w w := .of_same

theorem Works.Acts.trans {u v w : Works} (h : Works.Acts u v) (i : Works.Acts v w) : Works.Acts u w := Plant.Acts.trans h i

theorem Works.Acts.foldl {α : Type} {g : Works → α → Works} (hg : ∀ w a, Works.Acts w (g w a)) (l : List α) (w : Works) :
    Works.Acts w (l.foldl g w) := by
  induction l generalizing w with
  | nil => exact .refl w
  | cons a l ih => exact (hg w a).trans (ih _)

section
variable (m : Pmc) (order : List ZoneId) (z : ZoneId) (k : Nat) (w : Works)

theorem Works.onPlant_acts {g : Plant → Plant} (h : Plant.Acts w.plant (g w.plant)) : Works.Acts w (w.onPlant g) := h

theorem Works.report_acts (k : ReportKind) (u : Option Subject) (n : Option NewState) (d : Option Detail) :
    Works.Acts w (w.report k u n d) := Plant.Acts.report _ _ _ _ _

theorem Works.modCtx_acts (g : Ctx → Ctx) : Works.Acts w (w.modCtx z g) := .of_same (w.modCtx_plant z g)

theorem Works.postEntry_acts (e : PlanEntry) : Works.Acts w (w.postEntry order z k e) := by
  cases hc : w.ctx z with
  | none =>
    rw [Works.postEntry, hc]
    exact .refl w
  | some c =>
    cases h : (w.plant.chans.look e.act).fits e.pos with
    | true =>
      rw [Works.Acts, (w.postEntry_of_fits order z k e hc h).1]
      exact .setDemands _ _ _
    | false =>
      rw [w.postEntry_of_misfit order z k e hc h]
      exact Plant.Acts.report w.plant _ _ _ _

theorem Works.enterStep_acts : Works.Acts w (w.enterStep m order z k) := by
  unfold Works.enterStep
  split
  · exact .refl w
  split
  · exact .refl w
  · exact ((w.modCtx_acts z _).trans (Works.Acts.foldl (fun v e => v.postEntry_acts order z k e) _ _)).trans
      (Works.modCtx_acts ..)

theorem Works.advance_acts : Works.Acts w (w.advance m order z) := by
  unfold Works.advance
  split
  · exact .refl w
  split
  · exact w.enterStep_acts m order z _
  · exact (w.modCtx_acts z _).trans (.of_same (Works.established_plant ..))

theorem Works.endComplete_acts : Works.Acts w (w.endComplete m order z) := by
  unfold Works.endComplete
  split
  · exact .refl w
  · exact ((w.modCtx_acts z _).trans (Works.report_acts ..)).trans (Works.advance_acts ..)

theorem Works.endIncomplete_acts : Works.Acts w (w.endIncomplete m order z) := by
  unfold Works.endIncomplete
  split
  · exact .refl w
  · exact ((w.modCtx_acts z _).trans (Works.report_acts ..)).trans (Works.advance_acts ..)

theorem Works.judge_acts : Works.Acts w (w.judge m order z) := by
  unfold Works.judge
  split
  · exact .refl w
  split
  · exact w.endComplete_acts m order z
  · exact .refl w

theorem Works.settle_acts : Works.Acts w (w.settle m order) := by
  have notes (v : Works) (h : Works.Acts w v) : Works.Acts w v.takeNotes := by
    rw [Works.Acts, v.takeNotes_keeps.1]
    exact Plant.Acts.trans h (.notesTaken _)
  refine Works.settle_keeps (Works.Acts w) m order notes (fun v h => ?_) w (.refl w)
  exact Works.round_keeps (Works.Acts w) m order (fun _ h => Plant.Acts.trans h (.dueTaken _))
    (fun z v h => h.trans (v.judge_acts m order z)) v h

/-- A change of the channels and all that it calls for. -/
theorem Works.change_acts {g : Plant → Plant} (h : Plant.Acts w.plant (g w.plant)) :
    Works.Acts w ((w.onPlant g).settle m order) := (w.onPlant_acts h).trans (Works.settle_acts ..)

theorem Works.dwellExpiry_acts : Works.Acts w (w.dwellExpiry m order z) := by
  unfold Works.dwellExpiry
  split
  · split
    · exact (((w.onPlant_acts (.reach _ _)).trans (Works.modCtx_acts ..)).trans (Works.judge_acts ..)).trans
        (Works.settle_acts ..)
    · exact .refl w
  · exact .refl w

theorem Works.stepTimeoutExpiry_acts : Works.Acts w (w.stepTimeoutExpiry m order z) := by
  unfold Works.stepTimeoutExpiry
  split
  · split
    · exact ((w.onPlant_acts (.reach _ _)).trans (Works.endIncomplete_acts ..)).trans (Works.settle_acts ..)
    · exact .refl w
  · exact .refl w

theorem Works.begin_acts (cls : ExecClass) (b : Option BlockId) : Works.Acts w (w.begin m order z cls b) := by
  unfold Works.begin
  dsimp only
  refine Works.Acts.trans (Works.Acts.trans ?_ (Works.enterStep_acts ..)) (Works.settle_acts ..)
  split
  · exact .of_same
  · exact Works.report_acts ..
  · exact Works.report_acts ..

theorem Works.withdraw_acts : Works.Acts w (w.withdraw m order z) := by
  unfold Works.withdraw
  split
  · exact .refl w
  · exact Works.Acts.foldl (fun v _ => v.change_acts m order (.setDemands _ _ _)) _ (w.setCtx z none)

theorem Works.reorder_acts : Works.Acts w (w.reorder m order) :=
  Works.Acts.foldl (fun v _ => v.change_acts m order (.setDemands _ _ _)) allActs w

theorem Works.withdrawNormals_acts : Works.Acts w (w.withdrawNormals m order) :=
  Works.Acts.foldl (fun v _ => v.change_acts m order (.setDemands _ _ _)) allActs w

end

end Sys2Proof.Machine
end

section
/-!
SUPPORT. What the operations of the Incident Controller and the Test Sequencer, and the commands, do to the channel side
(`Plant.Acts`).
-/

namespace Sys2Proof.Machine

/-! ### The Incident Controller and the Test Sequencer -/

/-- From `x` to `y` the channel side is acted on, whatever becomes of zones, contexts and tests. -/
def Site.Acts (x y : Site) : Prop := Works.Acts x.works y.works

theorem Site.Acts.of_same {x y : Site} (h : y.works.plant = x.works.plant := by rfl) : x.Acts y := Works.Acts.of_same h

theorem Site.Acts.refl (x : Site) : x.Acts x := .of_same

theorem Site.Acts.trans {x y z : Site} (h : x.Acts y) (i : y.Acts z) : x.Acts z := Works.Acts.trans h i

section
variable (m : Pmc) (x : Site) (z : ZoneId) (o : Origin) (c : ZoneCause) (st : ZoneState) (head : Option ZoneId)

theorem Site.onWorks_acts {g : Works → Works} (h : Works.Acts x.works (g x.works)) : x.Acts (x.onWorks g) := h

theorem Site.tests_acts (t : Works → TestSeq) : x.Acts (x.onWorks fun w => { w with ts := t w }) := .of_same

theorem Site.modZone_acts (g : Zone → Zone) : x.Acts (x.modZone z g) := .of_same

theorem Site.report_acts (k : ReportKind) (u : Option Subject) (n : Option NewState) (d : Option Detail) :
    x.Acts (x.report k u n d) := x.works.report_acts k u n d

theorem Site.reportZone_acts : x.Acts (x.reportZone z c) := x.report_acts _ _ _ _

theorem Site.becomeActive_acts : x.Acts (x.becomeActive m z o c) := by
  rw [Site.Acts, Site.becomeActive_works]
  exact (Works.report_acts x.works _ _ _ _).trans (Works.begin_acts ..)

theorem Site.startIncident_acts : x.Acts (x.startIncident m) := by
  rw [Site.Acts, Site.startIncident_works]
  exact Works.withdrawNormals_acts ..

theorem Site.reEvaluate_acts : x.Acts (x.reEvaluate m) := by
  unfold Site.reEvaluate
  generalize x.ic.lockedOut = l
  induction l generalizing x with
  | nil => exact .refl x
  | cons z l ih =>
    refine Site.Acts.trans ?_ (ih _)
    obtain ⟨-, e⟩ | ⟨-, e⟩ := x.reAdmit_cases m z <;> rw [e]
    · exact x.becomeActive_acts m z _ _
    · exact .refl x

theorem Site.afterOrder_acts : x.Acts (x.afterOrder m head) := by
  unfold Site.afterOrder
  split
  · exact Site.reEvaluate_acts m { x with ic := { x.ic with rank := 0 } }
  · split
    · exact .refl x
    · exact x.reEvaluate_acts m

theorem Site.takeIn_acts : x.Acts (x.takeIn m z c) := by
  have active := x.becomeActive_acts m z .alarm c
  obtain ⟨-, e⟩ | ⟨-, -, e⟩ | ⟨-, -, e⟩ := x.takeIn_cases m z c <;> rw [e]
  · exact active.trans (Site.startIncident_acts ..)
  · exact active
  · exact x.report_acts _ _ _ _

theorem Site.leave_acts : x.Acts (x.leave m z st c) := by
  have departed : x.Acts (x.depart m z st c) :=
    (Works.report_acts x.works _ _ _ _).trans (Works.withdraw_acts ..)
  obtain ⟨-, e⟩ | ⟨-, e⟩ := x.leave_cases m z c st <;> rw [e]
  · exact departed.trans (Site.afterOrder_acts ..)
  · exact departed

theorem Site.move_acts : x.Acts (x.move m z c) := by
  rw [Site.Acts, Site.move_works]
  exact (Works.report_acts x.works _ _ _ _).trans (Works.reorder_acts ..)

theorem Site.closeTest_acts (cause : Option AbortCause) : x.Acts (x.closeTest m cause) := by
  unfold Site.closeTest
  split
  · exact .refl x
  · dsimp only
    exact (((((x.tests_acts _).trans (Site.modZone_acts ..)).trans (Site.reportZone_acts ..)).trans
      (Site.onWorks_acts _ (Works.withdraw_acts ..))).trans (Site.tests_acts ..)).trans (Site.report_acts ..)

theorem Site.reach_acts (d : Nat) : x.Acts (x.onWorks fun w => w.onPlant fun p => p.reach d) := Plant.Acts.reach _ _

theorem Site.startTest_acts (hold : Nat) : x.Acts (x.startTest m z hold) := by
  unfold Site.startTest
  dsimp only
  exact (((x.tests_acts _).trans (Site.modZone_acts ..)).trans (Site.reportZone_acts ..)).trans
    (Site.onWorks_acts _ (Works.begin_acts ..))

/-! ### The operations that commands bring -/

theorem Site.alarm_acts (l : Line) : x.Acts (x.alarm m l z) := by
  refine ((x.closeTest_acts m (some .alarm)).trans
    (Site.modZone_acts _ z fun r => { r with holders := r.holders.add l })).trans ?_
  unfold Site.alarm Site.abortTest
  dsimp only
  generalize Site.modZone .. = y
  split
  · exact y.takeIn_acts m z _
  · exact y.takeIn_acts m z _
  · exact (y.modZone_acts z _).trans (Site.reportZone_acts ..)
  all_goals exact .refl y

theorem Site.restore_acts (l : Line) : x.Acts (x.restore m l z) := by
  refine Site.Acts.trans (x.modZone_acts z fun r => { r with holders := r.holders.remove l }) ?_
  unfold Site.restore
  dsimp only
  generalize Site.modZone .. = y
  split
  · exact .refl y
  split
  · split
    · exact (Site.Acts.of_same (y := y.beginPurge z)).trans (Site.reportZone_acts ..)
    · exact .refl y
  · exact y.leave_acts m z _ _
  all_goals exact .refl y

theorem Site.purgeExpiry_acts : x.Acts (x.purgeExpiry m z) := by
  unfold Site.purgeExpiry
  dsimp only
  split
  · exact (x.reach_acts _).trans (Site.leave_acts ..)
  · exact .refl x

theorem Site.holdExpiry_acts : x.Acts (x.holdExpiry m) := by
  unfold Site.holdExpiry
  split
  · split
    · exact (x.reach_acts _).trans (Site.closeTest_acts ..)
    · exact .refl x
  · exact .refl x

theorem Site.extract_acts : x.Acts (x.extract m z) := by
  have active := x.becomeActive_acts m z .ff .ffExtract
  obtain ⟨-, -, e⟩ | ⟨-, -, e⟩ | ⟨-, -, -, e⟩ | ⟨-, -, -, e⟩ := x.extract_cases m z <;> rw [e]
  · exact .refl x
  · exact ((Site.Acts.of_same (y := x.takeFf z)).trans (Site.move_acts ..)).trans (Site.afterOrder_acts ..)
  · exact active.trans (Site.startIncident_acts ..)
  · exact active.trans (Site.afterOrder_acts ..)

theorem Site.holdOff_acts : x.Acts (x.holdOff m z) := by
  unfold Site.holdOff
  split
  · exact .refl x
  · exact x.leave_acts m z _ _

theorem Site.surrender_acts : x.Acts (x.surrender z) := .of_same (by rw [Site.surrender_works])

theorem Site.handBack_acts : x.Acts (x.handBack m z) := by
  obtain ⟨-, -, e⟩ | ⟨-, -, e⟩ | ⟨-, -, e⟩ | ⟨-, -, e⟩ := x.handBack_cases m z <;> rw [e]
  · exact (x.modZone_acts z _).trans (Site.reportZone_acts ..)
  · exact x.takeIn_acts m z _
  · exact ((x.surrender_acts z).trans (Site.move_acts ..)).trans (Site.afterOrder_acts ..)
  · exact .refl x

theorem Site.setMode_acts (mode : ZoneMode) : x.Acts (x.setMode m z mode) := by
  refine ((x.closeTest_acts m (some .ff)).trans (Site.modZone_acts _ z fun r => { r with ffMode := mode })).trans ?_
  cases mode with
  | extract => exact Site.extract_acts ..
  | off => exact Site.holdOff_acts ..
  | auto => exact Site.handBack_acts ..

end

/-- Every operation that a command can bring to the site acts on the channel side by the operations of the channel side. -/
theorem Site.Act.acts {m : Pmc} {x y : Site} (h : Site.Act m x y) : x.Acts y := by
  cases h with
  | nothing => exact .refl x
  | alarm l z => exact x.alarm_acts m z l
  | restore l z => exact x.restore_acts m z l
  | setMode z mode => exact x.setMode_acts m z mode
  | purgeExpiry z => exact x.purgeExpiry_acts m z
  | holdExpiry => exact x.holdExpiry_acts m
  | abortTest c => exact x.closeTest_acts m (some c)
  | startTest z hold _ _ => exact x.startTest_acts m z hold

end Sys2Proof.Machine
end

section
/-!
SUPPORT. Which requests leave the site alone, and what the others, and every command, do to the channel side (`Plant.Acts`).
-/

namespace Sys2Proof.Machine

/-! ### Owners that leave the site alone -/

/-- An owner that leaves the zones, the tests and the channel side alone. -/
def KeepsSite (o : Owner) : Prop := ∀ s : State, (o s).1.site = s.site

section
variable {α : Type} {o : Owner}

theorem keepsSite_refuse (e : Reason) : KeepsSite (refuse e) := fun _ => rfl

theorem keepsSite_withFields {b : Body α} {k : α → Owner} (h : ∀ a, KeepsSite (k a)) : KeepsSite (withFields b k) := by
  cases b with
  | fields a => exact h a
  | malformed => exact keepsSite_refuse _

theorem keepsSite_withId {a : Option α} {k : α → Owner} (h : ∀ a, KeepsSite (k a)) : KeepsSite (withId a k) := by
  cases a with
  | some a => exact h a
  | none => exact keepsSite_refuse _

theorem keepsSite_require (ok : State → Bool) (e : Reason) (h : KeepsSite o) : KeepsSite (require ok e o) := by
  intro s
  obtain ⟨-, k⟩ | ⟨-, k⟩ := require_cases s ok e o <;> rw [k]
  exact h s

theorem keepsSite_unbroken (b : Option BlockId) (h : KeepsSite o) : KeepsSite (unbroken b o) := by
  intro s
  unfold unbroken
  split
  · split
    · exact h s
    · rfl
  · exact h s

theorem keepsSite_whenIdle (h : KeepsSite o) : KeepsSite (whenIdle o) := keepsSite_require _ _ h
theorem keepsSite_whenCleared (h : KeepsSite o) : KeepsSite (whenCleared o) := keepsSite_require _ _ h
theorem keepsSite_whenCommissioning (h : KeepsSite o) : KeepsSite (whenCommissioning o) := keepsSite_require _ _ h
theorem keepsSite_whenNoFire (h : KeepsSite o) : KeepsSite (whenNoFire o) := keepsSite_require _ _ h
theorem keepsSite_whenNotBusy (h : KeepsSite o) : KeepsSite (whenNotBusy o) := keepsSite_require _ _ h

end

theorem keepsSite_restartOwner (b : Body Unit) : KeepsSite (restartOwner b) :=
  keepsSite_withFields fun _ => keepsSite_require _ _ <| keepsSite_require _ _ <| keepsSite_require _ _ fun _ => rfl

theorem keepsSite_eraseSetupOwner (b : Body Nat) : KeepsSite (eraseSetupOwner b) :=
  keepsSite_withFields fun _ => keepsSite_withId fun _ => keepsSite_unbroken _ <| keepsSite_whenIdle <|
    keepsSite_whenCleared <| keepsSite_whenCommissioning fun _ => rfl

theorem keepsSite_eraseConfirmOwner (b : Body Nat) : KeepsSite (eraseConfirmOwner b) := by
  refine keepsSite_withFields fun _ => keepsSite_withId fun b => keepsSite_unbroken _ fun s => ?_
  refine (keepsSite_whenIdle (keepsSite_whenCleared (keepsSite_whenCommissioning fun s => ?_)) _).trans ?_
  · split
    · rfl
    · split
      · rfl
      · split <;> rfl
  · split <;> rfl

theorem keepsSite_writeRecordOwner (b : Body WriteArgs) : KeepsSite (writeRecordOwner b) :=
  keepsSite_withFields fun _ => keepsSite_withId fun _ => keepsSite_withId fun _ => keepsSite_unbroken _ <|
    keepsSite_whenIdle <| keepsSite_whenCleared <| keepsSite_whenCommissioning <| keepsSite_whenNoFire fun s => by
      split <;> rfl

theorem keepsSite_commitOwner (b : Body Nat) : KeepsSite (commitOwner b) :=
  keepsSite_withFields fun _ => keepsSite_withId fun _ => keepsSite_unbroken _ <| keepsSite_whenIdle <|
    keepsSite_whenCleared <| keepsSite_whenCommissioning <| keepsSite_whenNoFire fun s => by
      split
      · rfl
      · split
        · rfl
        · split <;> rfl

theorem keepsSite_suspendOwner (b : Body Unit) : KeepsSite (suspendOwner b) :=
  keepsSite_withFields fun _ => keepsSite_unbroken _ fun s => by split <;> rfl

theorem keepsSite_resumeOwner (b : Body Unit) : KeepsSite (resumeOwner b) :=
  keepsSite_withFields fun _ => keepsSite_unbroken _ fun s => by
    split
    · exact keepsSite_whenNoFire (keepsSite_whenCommissioning fun s => by split <;> rfl) s
    · rfl

theorem keepsSite_lockOwner (b : Body Nat) : KeepsSite (lockOwner b) :=
  keepsSite_withFields fun _ => keepsSite_withId fun _ => keepsSite_unbroken _ <| keepsSite_whenNotBusy fun _ => rfl

theorem keepsSite_lockDownOwner (b : Body Nat) : KeepsSite (lockDownOwner b) :=
  keepsSite_withFields fun _ => keepsSite_withId fun _ => keepsSite_unbroken _ <| keepsSite_whenNotBusy fun _ => rfl

theorem keepsSite_unlockOwner (b : Body Nat) : KeepsSite (unlockOwner b) :=
  keepsSite_withFields fun _ => keepsSite_withId fun _ => keepsSite_unbroken _ <| keepsSite_whenCommissioning <|
    keepsSite_whenNotBusy fun s => by split <;> rfl

theorem keepsSite_readRecordOwner (b : Body PositionArgs) : KeepsSite (readRecordOwner b) :=
  keepsSite_withFields fun _ => keepsSite_withId fun _ => keepsSite_withId fun _ => keepsSite_require _ _ fun _ => rfl

theorem keepsSite_zoneTableOwner (b : Body ZoneReadArgs) : KeepsSite (zoneTableOwner b) := by
  refine keepsSite_withFields fun x => ?_
  cases x with
  | range first count => exact keepsSite_withId fun _ _ => rfl
  | step n k =>
    refine keepsSite_withId fun z s => ?_
    split <;> rfl

/-- A read's owner leaves the state alone. -/
theorem keepsSite_read {α : Type} (b : Body α) (f : α → State → Answer) : KeepsSite (withFields b fun a s => (s, f a s)) :=
  keepsSite_withFields fun _ _ => rfl

/-- So does a read's owner that needs an identifier. -/
theorem keepsSite_readId {α β : Type} (b : Body α) (i : α → Option β) (f : α → β → State → Answer) :
    KeepsSite (withFields b fun a => withId (i a) fun c s => (s, f a c s)) :=
  keepsSite_withFields fun _ => keepsSite_withId fun _ _ => rfl

/-! ### Changes of the state -/

/-- From `s` to `t` the channel side is acted on, whatever becomes of the rest. -/
def State.Acts (s t : State) : Prop := s.site.Acts t.site

theorem State.Acts.of_same {s t : State} (h : t.site = s.site := by rfl) : s.Acts t := Site.Acts.of_same (by rw [h])

theorem State.Acts.refl (s : State) : s.Acts s := .of_same

theorem State.Acts.trans {s t u : State} (h : s.Acts t) (i : t.Acts u) : s.Acts u := Site.Acts.trans h i

section
variable (s : State) (p : Port)

theorem State.onSite_acts (g : Pmc → Site → Site) (h : Site.Act s.pmc s.site (g s.pmc s.site)) : s.Acts (s.onSite g) := by
  rw [State.Acts, State.onSite_site]
  exact h.acts

theorem State.onWorks_acts (g : Pmc → List ZoneId → Works → Works) (h : ∀ m order w, Works.Acts w (g m order w)) :
    s.Acts (s.onWorks g) := h _ _ _

theorem State.onPlant_acts (g : Plant → Plant) (h : Plant.Acts s.plant (g s.plant)) : s.Acts (s.onPlant g) :=
  s.site.works.change_acts s.pmc s.site.ic.fireOrder h

theorem State.report_acts (k : ReportKind) (u : Option Subject) (n : Option NewState) (d : Option Detail) :
    s.Acts (s.report k u n d) := s.site.report_acts k u n d

theorem State.reach_acts (d : Nat) : s.Acts (s.reach d) := s.site.reach_acts d

theorem State.whenRunning_acts (g : State → State) (h : s.Acts (g s)) : s.Acts (s.whenRunning g) := by
  unfold State.whenRunning
  split
  · exact h
  · exact .refl s

theorem State.supervise_acts : s.Acts (s.supervise p) := by
  rw [State.Acts, State.supervise_site]
  split
  · exact s.site.report_acts _ _ _ _
  · exact .refl _

theorem State.serve_acts (permitted : Port → Bool) {o : Owner} (h : ∀ t : State, t.Acts (o t).1) :
    s.Acts (s.serve permitted o p) := by
  obtain ⟨-, k⟩ | ⟨-, -, k⟩ | ⟨-, -, k⟩ := s.serve_cases p permitted o <;> rw [k]
  · exact .refl s
  · exact (s.supervise_acts p).trans .of_same
  · exact ((s.supervise_acts p).trans (h _)).trans .of_same

end

/-! ### The owners that act on the site -/

/-- An owner that acts on the channel side by its own operations. -/
def PlantActing (o : Owner) : Prop := ∀ s : State, s.Acts (o s).1

section
variable {α : Type} {o : Owner}

theorem KeepsSite.plantActing (h : KeepsSite o) : PlantActing o := fun s => .of_same (h s)

theorem plantActing_withFields {b : Body α} {k : α → Owner} (h : ∀ a, PlantActing (k a)) : PlantActing (withFields b k) := by
  cases b with
  | fields a => exact h a
  | malformed => exact (keepsSite_refuse _).plantActing

theorem plantActing_withId {a : Option α} {k : α → Owner} (h : ∀ a, PlantActing (k a)) : PlantActing (withId a k) := by
  cases a with
  | some a => exact h a
  | none => exact (keepsSite_refuse _).plantActing

theorem plantActing_require (ok : State → Bool) (e : Reason) (h : ∀ s : State, ok s = true → s.Acts (o s).1) :
    PlantActing (require ok e o) := by
  intro s
  obtain ⟨c, k⟩ | ⟨-, k⟩ := require_cases s ok e o <;> rw [k]
  · exact h s c
  · exact .refl s

end

/-- What an accepted SET OVERRIDE or SET NORMAL asks of a list (R56, R59). -/
theorem State.ask_acts (s : State) (a : ActId) (cls : DemandClass) (o : Originator) (q : Asked) :
    s.Acts (s.onPlant fun x => x.ask s.site.ic.fireOrder a cls o q) :=
  s.onPlant_acts _ (by cases q <;> exact .setDemands _ _ _)

theorem plantActing_settingAsked (b : Body SettingArgs) {k : ActId → Asked → Owner} (h : ∀ a q, PlantActing (k a q)) :
    PlantActing (settingAsked b k) := by
  refine plantActing_withFields fun x => plantActing_withId fun a s => ?_
  split
  · exact h _ _ s
  · exact .refl s

theorem plantActing_clearFaultOwner (b : Body Nat) : PlantActing (clearFaultOwner b) := by
  refine plantActing_withFields fun n => plantActing_withId fun a s => ?_
  split
  · exact .refl s
  · exact s.onPlant_acts _ (.clearDamper _ a)
  · exact s.onPlant_acts _ (.clearFan _ a)

theorem plantActing_reported (p : Port) (b : Body Nat) {act : Line → ZoneId → Owner} (h : ∀ l z, PlantActing (act l z)) :
    PlantActing (reported p b act) := by
  refine plantActing_withFields fun n => plantActing_withId fun z => plantActing_require _ _ fun s _ => ?_
  cases p with
  | alarm l => exact plantActing_require _ _ (fun s _ => h l z s) s
  | ff | bl => exact .refl s

theorem plantActing_setZoneModeOwner (b : Body ZoneModeArgs) : PlantActing (setZoneModeOwner b) :=
  plantActing_withFields fun x => plantActing_withId fun z => plantActing_require _ _ fun s _ =>
    s.onSite_acts (fun m y => y.setMode m z x.mode) (.setMode z x.mode)

theorem plantActing_testZoneOwner (b : Body TestArgs) : PlantActing (testZoneOwner b) := by
  refine plantActing_withFields fun x => plantActing_withId fun z => ?_
  have starts (s : State) : s.Acts (s.onSite fun m y => y.startTest m z (heldFor x.hold)) := by
    rw [State.Acts, State.onSite_site]
    exact Site.startTest_acts ..
  exact plantActing_require _ _ fun s _ => plantActing_require _ _ (fun s _ => plantActing_require _ _ (fun s _ =>
    plantActing_require _ _ (fun s _ => plantActing_require _ _ (fun s _ => plantActing_require _ _ (fun s _ =>
      starts s) s) s) s) s) s

theorem plantActing_abortTestOwner (b : Body Unit) : PlantActing (abortTestOwner b) :=
  plantActing_withFields fun _ => plantActing_require _ _ fun s _ =>
    s.onSite_acts (fun m x => x.abortTest m .abortTest) (.abortTest _)

/-- The reports read leave the queue of their port (R159). -/
theorem plantActing_readReportsOwner (p : Port) (b : Body Nat) : PlantActing (readReportsOwner p b) := by
  refine plantActing_withFields fun n s => ?_
  cases p with
  | alarm l => exact .refl s
  | ff =>
    dsimp only [State.queueOf]
    split
    · exact Plant.Acts.ffRead _ n
    · exact .refl s
  | bl =>
    dsimp only [State.queueOf]
    split
    · exact Plant.Acts.blRead _ n
    · exact .refl s

/-! ### Every request -/

theorem execRequest_acts (i : Instr) (s : State) : ∃ t, execRequest i s = .next t ∧ s.Acts t := by
  have served {o : Owner} (p : Port) (permitted : Port → Bool) (h : PlantActing o) :
      ∃ t, (.next (s.serve permitted o p) : Host.Outcome State Fault Refusal) = .next t ∧ s.Acts t :=
    ⟨_, rfl, s.serve_acts p permitted h⟩
  have kept {o : Owner} (p : Port) (permitted : Port → Bool) (h : KeepsSite o) := served p permitted h.plantActing
  cases i with
  | poll p b | ackRestart p b | clearPlanStatus p b => exact kept p _ (keepsSite_withFields fun _ _ => rfl)
  | alarm p b =>
    exact served p _ (plantActing_reported p b fun l z s => s.onSite_acts (fun m x => x.alarm m l z) (.alarm l z))
  | restore p b =>
    exact served p _ (plantActing_reported p b fun l z s => s.onSite_acts (fun m x => x.restore m l z) (.restore l z))
  | setZoneMode p b => exact served p _ (plantActing_setZoneModeOwner b)
  | setOverride p b => exact served p _ (plantActing_settingAsked b fun a q s => s.ask_acts a .manual .ff q)
  | setNormal p b =>
    exact served p _ (plantActing_settingAsked b fun a q => plantActing_require _ _ fun s _ => s.ask_acts a .normal .bl q)
  | clearFault p b => exact served p _ (plantActing_clearFaultOwner b)
  | testZone p b => exact served p _ (plantActing_testZoneOwner b)
  | abortTest p b => exact served p _ (plantActing_abortTestOwner b)
  | readReports p b => exact served p _ (plantActing_readReportsOwner p b)
  | restartController p b => exact kept p _ (keepsSite_restartOwner b)
  | eraseSetup p b => exact kept p _ (keepsSite_eraseSetupOwner b)
  | eraseConfirm p b => exact kept p _ (keepsSite_eraseConfirmOwner b)
  | writeRecord p b => exact kept p _ (keepsSite_writeRecordOwner b)
  | commit p b => exact kept p _ (keepsSite_commitOwner b)
  | suspend p b => exact kept p _ (keepsSite_suspendOwner b)
  | resume p b => exact kept p _ (keepsSite_resumeOwner b)
  | lock p b => exact kept p _ (keepsSite_lockOwner b)
  | lockDown p b => exact kept p _ (keepsSite_lockDownOwner b)
  | unlock p b => exact kept p _ (keepsSite_unlockOwner b)
  | readRecord p b => exact kept p _ (keepsSite_readRecordOwner b)
  | zoneTableRead p b => exact kept p _ (keepsSite_zoneTableOwner b)
  | readBlockStates p b | planStatus p b | queryGeometry p b | startQueueRead p b | linkTableRead p b =>
    exact kept p _ (keepsSite_read b _)
  | actuatorTableRead p b | groupTableRead p b | testRecordRead p b => exact kept p _ (keepsSite_readId b _ _)
  | unknownRequestCode p c => exact kept p _ (keepsSite_refuse _)
  | _ => exact ⟨s, rfl, .refl s⟩

/-! ### Every command -/

theorem execCrcFailure_acts (p : Port) (s : State) : ∃ t, execCrcFailure p s = .next t ∧ s.Acts t := by
  refine ⟨_, rfl, ?_⟩
  split <;> exact .of_same

theorem execByteArriving_acts (p : Port) (b : Byte) (stopBit : Bool) (s : State) :
    ∃ t, execByteArriving p b stopBit s = .next t ∧ s.Acts t := by
  have received (r : Received) : ∃ t, s.received p r = .next t ∧ s.Acts t := by
    unfold State.received
    split
    · exact ⟨_, rfl, .of_same⟩
    · exact ⟨_, rfl, .of_same⟩
    · exact execCrcFailure_acts p s
    · split
      · exact execRequest_acts _ s
      · exact ⟨_, rfl, .of_same⟩
  unfold execByteArriving
  split
  · split
    · exact received _
    · exact received _
    · exact ⟨s, rfl, .refl s⟩
  · exact ⟨s, rfl, .refl s⟩

section
variable (s : State)

theorem State.endOp_acts (k : OpKind) (b : BlockId) (d : Nat) (g : Pmc → Pmc) : s.Acts (s.endOp k b d g) :=
  (Site.reach_acts s.site d).trans (Site.report_acts ..)

theorem State.gapExpiry_acts (p : Port) : s.Acts (s.gapExpiry p) := by
  unfold State.gapExpiry
  split
  · exact (s.reach_acts _).trans .of_same
  · exact .refl s

theorem State.silenced_acts (p : Port) : s.Acts (s.silenced p) := by
  cases p with
  | alarm l => exact .refl s
  | ff => exact .refl s
  | bl =>
    exact (s.onWorks_acts _ fun m order w => w.withdrawNormals_acts m order).trans
      (State.onSite_acts _ (fun m x => x.abortTest m .blSilent) (.abortTest _))

theorem State.windowExpiry_acts (p : Port) : s.Acts (s.windowExpiry p) := by
  unfold State.windowExpiry
  dsimp only
  split
  · exact (((s.reach_acts _).trans .of_same).trans (State.report_acts ..)).trans (State.silenced_acts ..)
  · exact .refl s

/-- While the 6408 runs a command acts on the channel side by the channel side's operations, or it is a reset. -/
theorem exec_acts (i : Instr) (hr : s.mode = .running) : ∃ t, exec i s = .next t ∧ (s.Acts t ∨ t.mode ≠ .running) := by
  have went {t : State} (h : s.Acts t) : ∃ u, (.next t : Host.Outcome State Fault Refusal) = .next u
      ∧ (s.Acts u ∨ u.mode ≠ .running) := ⟨t, rfl, .inl h⟩
  have expires (g : State → State) (h : s.Acts (g s)) := went (s.whenRunning_acts g h)
  have channel {g : Plant → Plant} (h : Plant.Acts s.plant (g s.plant)) := expires (fun s => s.onPlant g) (s.onPlant_acts g h)
  have input {g h : Plant → Plant} (hg : Plant.Acts s.plant (g s.plant)) := went (t := s.onInput g h) (by
    unfold State.onInput
    rw [if_pos (by simp [State.isRunning, hr])]
    exact s.onPlant_acts g hg)
  have reset (kind : StartKind) (t : State) : (t.beginStartUp kind).mode ≠ .running := by simp [State.beginStartUp]
  have taken {o : Host.Outcome State Fault Refusal} (h : ∃ t, o = .next t ∧ s.Acts t) :
      ∃ t, o = .next t ∧ (s.Acts t ∨ t.mode ≠ .running) := by
    obtain ⟨t, rfl, h⟩ := h
    exact went h
  have request (i : Instr) (same : exec i s = execRequest i s) := taken (same ▸ execRequest_acts i s)
  cases i with
  | crcFailure p => exact taken (execCrcFailure_acts p s)
  | byteArriving p b stopBit => exact taken (execByteArriving_acts p b stopBit s)
  | gapExpiry p => exact expires _ (s.gapExpiry_acts p)
  | replySent p =>
    refine ⟨_, rfl, ?_⟩
    unfold State.whenRunning State.replySent
    split
    · split
      · dsimp only
        split
        · exact .inr (reset _ _)
        · exact .inl .of_same
      · exact .inl (.refl s)
    · exact .inl (.refl s)
  | supervisionWindowExpiry p => exact expires _ (s.windowExpiry_acts p)
  | purgeExpiry z => exact expires _ (s.onSite_acts (fun m x => x.purgeExpiry m z) (.purgeExpiry z))
  | dwellExpiry z => exact expires _ (s.onWorks_acts _ fun m order w => w.dwellExpiry_acts m order z)
  | stepTimeoutExpiry z => exact expires _ (s.onWorks_acts _ fun m order w => w.stepTimeoutExpiry_acts m order z)
  | holdExpiry => exact expires _ (s.onSite_acts (fun m x => x.holdExpiry m) .holdExpiry)
  | travelTimerExpiry a => exact channel (.travelExpiry _ a)
  | proofTimerExpiry a => exact channel (.proofExpiry _ a)
  | runDownExpiry a => exact channel (.runDownExpiry _ a)
  | staggerExpiry => exact channel (.staggerExpiry _)
  | slewUpdate => exact channel (.slewUpdate _)
  | eraseCompletion v =>
    refine expires _ ?_
    split
    · exact s.endOp_acts ..
    · exact .refl s
  | writeCompletion =>
    refine expires _ ?_
    split
    · exact s.endOp_acts ..
    · exact .refl s
  | commitCompletion =>
    refine expires _ ?_
    split
    · exact s.endOp_acts ..
    · exact .refl s
  | switchChange a o c => exact input (.switchChange _ a o c)
  | proofArrives a => exact input (.proofArrives _ a)
  | proofLost a => exact input (.proofLost _ a)
  | commissioningInputOff | commissioningInputOn =>
    refine ⟨_, rfl, .inl ?_⟩
    split <;> exact .of_same
  | powerOnReset | resetInputAsserted => exact ⟨_, rfl, .inr (reset _ s)⟩
  | resetInputReleased =>
    refine ⟨_, rfl, .inl (.of_same ?_)⟩
    simp [State.resetReleased, hr]
  | startUpOperation =>
    refine ⟨s, ?_, .inl (.refl s)⟩
    simp [exec, execStartUpOperation, hr]
  | _ => exact request _ rfl

end

/-! ### Every step -/

theorem State.samplePass_acts (s : State) : s.Acts s.samplePass := by
  unfold State.samplePass
  split
  · exact .of_same
  · exact Plant.Acts.sampled _ _

theorem State.tick_acts (s : State) : s.Acts s.tick := by
  unfold State.tick
  dsimp only
  refine State.Acts.trans ?_ (State.samplePass_acts _)
  have reached := s.reach_acts (s.now + 1)
  split
  · exact reached.trans .of_same
  · exact reached

/-- A step of the running 6408 acts on the channel side by the channel side's operations, or it leads into a start-up operation. -/
theorem step_acts {s t : State} (hr : s.mode = .running) (e : step s = .next t) :
    Plant.Acts s.plant t.plant ∨ t.mode ≠ .running := by
  have command {i : Instr} {s' : State} (e : exec i s' = .next t) (hm : s'.mode = s.mode) (hs : s'.site = s.site) :
      s.Acts t ∨ t.mode ≠ .running := by
    obtain ⟨u, eu, h⟩ := exec_acts s' i (hm.trans hr)
    obtain rfl : t = u := Host.Outcome.next.inj (e.symm.trans eu)
    exact h.imp_left fun h => (State.Acts.of_same hs).trans h
  unfold step at e
  split at e
  · exact command e rfl rfl
  · unfold idle at e
    rw [hr] at e
    dsimp only at e
    split at e
    · exact command e hr.symm rfl
    · rw [← Host.Outcome.next.inj e]
      exact .inl s.tick_acts

/-- The channel side as a step of the 6408 leaves it running: what the channel side's operations have made of it, or the end of a
start-up operation. -/
theorem step_acts_or_starts {s t : State} (e : step s = .next t) (ht : t.mode = .running) :
    s.mode = .running ∧ Plant.Acts s.plant t.plant ∨ ∃ kind u, t = State.completeStartUp kind u := by
  obtain resolves | ⟨starting, -⟩ | started := step_moves e
  · have hr : s.mode = .running := resolves.mode ▸ ht
    exact .inl ⟨hr, (step_acts hr e).resolve_right fun k => k ht⟩
  · exact absurd ht starting
  · exact .inr started

/-! ### The end of the start-up operation (R81, R82) -/

theorem DamperCfg.derive_drive (c : DamperCfg) (sw : SwitchCond) :
    (c.derive sw).drive = (c.derive sw).cfg.driveFor (c.derive sw).target := by
  unfold DamperCfg.derive
  dsimp only
  split
  · rfl
  · split <;> rfl

theorem FanCfg.derive_outputsFollow (c : FanCfg) (proof : Bool) : (Channel.fan (c.derive proof)).outputsFollow = true := by
  cases proof <;> rfl

/-- A channel as derived puts out what its target calls for, and no fan runs (R81, R82). -/
theorem ChanCfg.derive_outputsFollow (c : ChanCfg) (i : ChanInputs) : (c.derive i).outputsFollow = true := by
  cases c with
  | unassigned => rfl
  | damper d => exact (Damper.outputsFollow_iff _).mpr (d.derive_drive _)
  | fan f => exact f.derive_outputsFollow _

theorem State.completeStartUp_outputsFollow (kind : StartKind) (s : State) : (s.completeStartUp kind).plant.OutputsFollow := by
  intro a
  obtain ⟨c, i, -, look⟩ := s.completeStartUp_look kind a
  rw [look]
  exact c.derive_outputsFollow i

/-- Settles O7: each operation of the channel side keeps the outputs, and the end of a start-up operation derives them. -/
theorem everyStepKeepsTheOutputsFollowingTheState : Obligations.EveryStepKeepsTheOutputsFollowingTheState := by
  intro s t h e ht
  obtain ⟨hr, acts⟩ | ⟨kind, u, rfl⟩ := step_acts_or_starts e ht
  · exact acts.outputsFollow (h hr)
  · exact u.completeStartUp_outputsFollow kind

end Sys2Proof.Machine
end

section
/-!
SUPPORT. CLEAR FAULT by the state of the channel (R76, R93): O39.
-/

namespace Sys2Proof.Machine

/-- A change of the channel side is what it makes of the channel side as it stands. -/
theorem State.onPlant_congr (s : State) {g h : Plant → Plant} (e : g s.plant = h s.plant) : s.onPlant g = s.onPlant h := by
  have same : s.site.works.onPlant g = s.site.works.onPlant h := congrArg (fun p => { s.site.works with plant := p }) e
  exact congrArg (fun w : Works => { s with site := { s.site with works := w.settle s.pmc s.site.ic.fireOrder } }) same

/-! ### Dampers and fans that change without passing AT_OPEN -/

/-- A damper that neither leaves nor enters AT_OPEN hands nothing on (R79). -/
theorem Plant.handOpenness_of_alike (x : Plant) (a : ActId) {was is : DamperState} (cfg : DamperCfg)
    (h : was = .atOpen ↔ is = .atOpen) : x.handOpenness a was is cfg = x := if_pos (propext h)

/-- A damper that passes no AT_OPEN and enters no fault: the record, the report, and the change handed to the Plan Executor. -/
theorem Plant.damperEnter_of_alike (x : Plant) (a : ActId) {was : DamperState} {d : Damper} (k : ReportKind) (e : Option Detail)
    (h : was = .atOpen ↔ d.state = .atOpen) (hf : (d.state.isFault && !was.isFault) = false) :
    x.damperEnter a was d k e = ((x.setChan a (.damper d)).report k (some (.actuator a)) (some (.damper d.state)) e).handPx a := by
  unfold Plant.damperEnter
  dsimp only
  rw [hf, if_neg (by decide), Plant.handOpenness_of_alike _ _ _ h]

theorem DamperPos.travelState_ne_atOpen (p : DamperPos) : p.travelState ≠ .atOpen := by cases p <;> decide

@[simp] theorem DamperPos.travelState_isFault (p : DamperPos) : p.travelState.isFault = false := by cases p <;> rfl

/-- A fan that enters no fault state: the record and the Plan Executor. -/
theorem Plant.fanEnter_of_sound {x : Plant} {a : ActId} {f : Fan} (h : x.chans.look a = .fan f) {st : FanState} (g : Fan → Fan)
    (hs : st.isFault = false) : x.fanEnter a st g = (x.setChan a (.fan { g f with state := st })).handPx a := by
  unfold Plant.fanEnter
  rw [(x.fan?_eq_some a).mpr h]
  dsimp only
  rw [hs, Bool.false_and, if_neg (by decide), Plant.modFan_of_fan h]

/-! ### CLEAR FAULT -/

section
variable {x : Plant} {a : ActId}

theorem Plant.clearDamper_of_fault {d : Damper} (h : x.chans.look a = .damper d) (hs : d.state = .travelFault) :
    x.clearDamper a =
      ((x.setChan a (.damper
        { d with state := d.target.travelState, timer := some (x.now + d.cfg.travelLimit * 1000) })).report .damperState
          (some (.actuator a)) (some (.damper d.target.travelState)) (some (.damperCause .clear))).handPx a := by
  have leaves : d.state = .atOpen ↔ d.target.travelState = .atOpen := by simp [hs, d.target.travelState_ne_atOpen]
  unfold Plant.clearDamper
  rw [(x.damper?_eq_some a).mpr h]
  exact (if_pos hs).trans (x.damperEnter_of_alike a _ _ leaves (by simp))

theorem Plant.clearDamper_of_other {d : Damper} (h : x.chans.look a = .damper d) (hs : d.state ≠ .travelFault) :
    x.clearDamper a = x := by
  unfold Plant.clearDamper
  rw [(x.damper?_eq_some a).mpr h]
  exact if_neg hs

variable {f : Fan} (h : x.chans.look a = .fan f)
include h

theorem Plant.clearFan_of_runFault (hs : f.state = .runFault) : x.clearFan a =
    ((x.setChan a (.fan { f with
      state := .starting, faultCause := none, present := f.cfg.minSpeed
      proofTimer := some (x.now + f.cfg.proofTime * 1000) })).handPx a).reportFan a .starting .clear := by
  simp only [Plant.clearFan, (x.fan?_eq_some a).mpr h, hs, Plant.fanEnter_of_sound h _ (st := .starting) rfl]

theorem Plant.clearFan_of_stopFault (hs : f.state = .stopFault) : x.clearFan a =
    ((x.setChan a (.fan { f with
      state := .stopping, runDownTimer := some (x.now + f.cfg.runDown * 1000) })).handPx a).reportFan a .stopping .clear := by
  simp only [Plant.clearFan, (x.fan?_eq_some a).mpr h, hs, Plant.fanEnter_of_sound h _ (st := .stopping) rfl]

theorem Plant.clearFan_of_other (hr : f.state ≠ .runFault) (hs : f.state ≠ .stopFault) : x.clearFan a = x := by
  unfold Plant.clearFan
  rw [(x.fan?_eq_some a).mpr h]
  dsimp only
  split
  case h_1 e => exact absurd e hr
  case h_2 e => exact absurd e hs
  case h_3 => rfl

end

section
variable (s : State) {n : Nat} {a : ActId}

/-- The owner of CLEAR FAULT acts by the channel as it stands (R76, R93, R171). -/
theorem clearFaultOwner_of_number (ha : actOfNumber n = some a) : clearFaultOwner (.fields n) s =
    match s.plant.chans.look a with
    | .unassigned => (s, .error .badArgument)
    | .damper _ => (s.onPlant fun x => x.clearDamper a, .ok [])
    | .fan _ => (s.onPlant fun x => x.clearFan a, .ok []) := by
  unfold clearFaultOwner
  rw [withFields_fields, ha, withId_some]
  rfl

theorem exec_clearFault_of_owner {b : Body Nat} (hs : s.taking .ff = true) {t : State} {r : Answer}
    (h : clearFaultOwner b (s.supervise .ff) = (t, r)) : exec (.clearFault .ff b) s = .next (t.reply .ff r) := by
  refine congrArg _ ((s.serve_taken .ff _ _ hs rfl).trans ?_)
  rw [h]

theorem exec_clearFault_damper (hs : s.taking .ff = true) (ha : actOfNumber n = some a) {d : Damper}
    (h : s.plant.chans.look a = .damper d) {g : Plant → Plant}
    (e : (s.supervise .ff).plant.clearDamper a = g (s.supervise .ff).plant) :
    exec (.clearFault .ff (.fields n)) s = .next (((s.supervise .ff).onPlant g).reply .ff (.ok [])) := by
  refine exec_clearFault_of_owner s hs ?_
  rw [clearFaultOwner_of_number _ ha, State.plant, s.supervise_chans, ← State.plant, h]
  exact congrArg (fun t => (t, (.ok [] : Answer))) ((s.supervise .ff).onPlant_congr e)

theorem exec_clearFault_fan (hs : s.taking .ff = true) (ha : actOfNumber n = some a) {f : Fan}
    (h : s.plant.chans.look a = .fan f) {g : Plant → Plant}
    (e : (s.supervise .ff).plant.clearFan a = g (s.supervise .ff).plant) :
    exec (.clearFault .ff (.fields n)) s = .next (((s.supervise .ff).onPlant g).reply .ff (.ok [])) := by
  refine exec_clearFault_of_owner s hs ?_
  rw [clearFaultOwner_of_number _ ha, State.plant, s.supervise_chans, ← State.plant, h]
  exact congrArg (fun t => (t, (.ok [] : Answer))) ((s.supervise .ff).onPlant_congr e)

end

/-- Settles O39: the owner's checks, and then the channel's state. -/
theorem clearFaultRestartsAFaultedChannel : Obligations.ClearFaultRestartsAFaultedChannel := by
  intro s n hs v done refused
  have look (a : ActId) : v.plant.chans.look a = s.plant.chans.look a := congrArg (Table.look · a) (s.supervise_chans .ff)
  have now : v.plant.now = s.now := s.supervise_now .ff
  refine ⟨fun hn => ?_, exec_clearFault_of_owner s hs rfl, fun a ha => ⟨fun h => ?_, fun d h hd => ?_, fun d h hd => ?_,
    fun f h hf => ?_, fun f h hf => ?_, fun f h hr hf => ?_⟩⟩
  · refine exec_clearFault_of_owner s hs ?_
    rw [clearFaultOwner, withFields_fields, actOfNumber_eq_none hn, withId_none]
  · refine exec_clearFault_of_owner s hs ?_
    rw [clearFaultOwner_of_number _ ha, look, h]
  · exact exec_clearFault_damper s hs ha h (now ▸ Plant.clearDamper_of_fault ((look a).trans h) hd)
  · exact exec_clearFault_damper s hs ha h (Plant.clearDamper_of_other ((look a).trans h) hd)
  · exact exec_clearFault_fan s hs ha h (now ▸ Plant.clearFan_of_runFault ((look a).trans h) hf)
  · exact exec_clearFault_fan s hs ha h (now ▸ Plant.clearFan_of_stopFault ((look a).trans h) hf)
  · exact exec_clearFault_fan s hs ha h (Plant.clearFan_of_other ((look a).trans h) hr hf)

end Sys2Proof.Machine
end

section
/-!
SUPPORT. A damper by its switches and its travel timer (R70 to R75, R78): O40.
-/

namespace Sys2Proof.Machine

/-! ### The switches (R66, R67) -/

@[simp] theorem Input.follow_debounced (i : Input) (v : Bool) : (i.follow v).debounced = v := by
  unfold Input.follow
  split
  case isTrue h => exact h.symm
  case isFalse => rfl

/-- A switch that does not change keeps its own samples (R66). -/
theorem Input.follow_of_same {i : Input} {v : Bool} (h : v = i.debounced) : i.follow v = i := if_pos h

theorem Plant.setSwitches_look (x : Plant) (a : ActId) (o c : Bool) : (x.setSwitches a o c).inputs.look a =
    ⟨(x.inputs.look a).first.follow o, (x.inputs.look a).second.follow c⟩ := Table.look_put_same ..

theorem Plant.setSwitches_condOf (x : Plant) (a : ActId) (o c : Bool) : (x.setSwitches a o c).condOf a = switchCond o c := by
  simp only [Plant.condOf, Plant.setSwitches_look, Input.follow_debounced]

theorem DamperPos.endCond_ne_contradictory (p : DamperPos) : p.endCond ≠ .contradictory := by cases p <;> decide

/-! ### A damper's change of state -/

/-- From `x` to `y` damper `a` has become `d`; inputs and statistics stand as they were. -/
structure Plant.Becomes (x y : Plant) (a : ActId) (d : Damper) : Prop where
  look : y.chans.look a = .damper d
  inputs : y.inputs = x.inputs
  stats : y.stats = x.stats

section
variable (x : Plant) (a : ActId) (d : Damper)

/-- What follows a damper's change of state is the fans' work, and no damper takes part in it (R79). -/
theorem Plant.damperEnter_becomes (was : DamperState) (k : ReportKind) (e : Option Detail) :
    Plant.Becomes x (x.damperEnter a was d k e) a d := by
  have work := x.damperEnter_fansWork a was d k e
  obtain ⟨keeps, stats⟩ := work.keeps
  exact ⟨work.damper (Table.look_put_same ..), keeps.inputs, stats⟩

theorem Plant.enterSwitchFault_becomes : Plant.Becomes x (x.enterSwitchFault a d) a d.inSwitchFault :=
  x.damperEnter_becomes ..

/-! ### An arrival (R70, R75, R78) -/

/-- An arrival changes of the statistics what the capture does, and the damper is proven at its target. -/
theorem Plant.arrive_becomes (k : ReportKind) :
    Plant.Becomes (x.capture a d.cfg.travelLimit (d.captured x.now)) (x.arrive a d k) a d.arrived :=
  Plant.damperEnter_becomes ..

theorem Plant.capture_inputs (limit : Nat) (t : Option Nat) : (x.capture a limit t).inputs = x.inputs := by
  cases t <;> rfl

theorem Plant.capture_look (limit t : Nat) :
    (x.capture a limit (some t)).stats.look a = (x.stats.look a).capture t limit := Table.look_put_same ..

theorem Damper.captured_of_other (now : Nat) (h : d.cause ≠ some .command) : d.captured now = none := if_neg h

theorem Damper.captured_of_command (now : Nat) {start : Nat} (h : d.cause = some .command) (hs : d.captureStart = some start) :
    d.captured now = some (max 1 (now - start)) := by
  unfold Damper.captured
  rw [if_pos h, hs]
  rfl

theorem isSlow_iff (t limit : Nat) : isSlow t limit = true ↔ 3 * (limit * 1000) < 4 * t := decide_eq_true_iff

theorem statedTime_of_le {t : Nat} (h : t ≤ Config.max32) : statedTime t = t := if_pos h

/-- The new average lies between the old one and the travel time, so it is no negative number (R78). -/
theorem newAverage_eq (old t : Nat) : (newAverage old t : Int) = old + Int.tdiv ((t : Int) - old) 4 := by
  have bounded : -((old : Int) - t) ≤ Int.tdiv ((t : Int) - old) 4 ∨ 0 ≤ Int.tdiv ((t : Int) - old) 4 := by
    obtain le | le := Int.le_total old t
    · exact .inr (Int.tdiv_nonneg (by omega) (by decide))
    · have := Int.tdiv_le_self (a := (old : Int) - t) 4 (by omega)
      rw [show (t : Int) - old = -((old : Int) - t) by omega, Int.neg_tdiv]
      exact .inl (by omega)
  exact Int.toNat_of_nonneg (by omega)

/-- What a capture leaves in the statistics (R78). -/
theorem Stats.capture_spec (old : Stats) (t limit : Nat) :
    (old.capture t limit).count = min 65535 (old.count + 1) ∧ ((old.capture t limit).slow = true ↔ 3 * (limit * 1000) < 4 * t)
      ∧ (t ≤ Config.max32 → (old.capture t limit).last = some t)
      ∧ (t ≤ Config.max32 → old.average = none → (old.capture t limit).average = some t)
      ∧ (∀ avg, t ≤ Config.max32 → old.average = some avg →
        ∃ n, (old.capture t limit).average = some n ∧ (n : Int) = avg + Int.tdiv ((t : Int) - avg) 4) := by
  refine ⟨rfl, isSlow_iff t limit, fun h => ?_, fun h empty => ?_,
    fun avg h held => ⟨newAverage avg t, ?_, newAverage_eq avg t⟩⟩
  · simp only [Stats.capture, statedTime_of_le h]
  · simp only [Stats.capture, statedTime_of_le h, empty]
  · simp only [Stats.capture, statedTime_of_le h, held]

/-! ### A switch change by the state -/

theorem Plant.damperSwitch_of_end (ht : d.state = .opening ∨ d.state = .closing ∨ d.state = .travelFault)
    (hc : x.condOf a = d.target.endCond) : ∃ k, x.damperSwitch a d = x.arrive a d k := by
  obtain hs | hs | hs := ht <;> simp only [Plant.damperSwitch, hs, hc, if_true]
  · exact ⟨_, rfl⟩
  · exact ⟨_, rfl⟩
  · exact ⟨_, rfl⟩

theorem Plant.damperSwitch_of_underway (ht : d.state = .opening ∨ d.state = .closing ∨ d.state = .travelFault)
    (hc : x.condOf a ≠ d.target.endCond) (hk : x.condOf a ≠ .contradictory) : x.damperSwitch a d = x := by
  obtain hs | hs | hs := ht <;> simp only [Plant.damperSwitch, hs, hc, hk, if_false]

theorem Plant.damperSwitch_of_contradictory (hs : d.state ≠ .switchFault) (hk : x.condOf a = .contradictory) :
    x.damperSwitch a d = x.enterSwitchFault a d := by
  have he := d.target.endCond_ne_contradictory.symm
  cases e : d.state with
  | switchFault => exact absurd e hs
  | _ => simp only [Plant.damperSwitch, e, hk, he, if_true, if_false]

theorem Plant.damperSwitch_of_held (hs : d.state = .atOpen ∨ d.state = .atClosed) (hc : x.condOf a = d.target.endCond) :
    x.damperSwitch a d = x := by
  have he := d.target.endCond_ne_contradictory
  obtain hs | hs := hs <;> simp only [Plant.damperSwitch, hs, hc, he, if_true, if_false]

theorem Plant.damperSwitch_of_drift (hs : d.state = .atOpen ∨ d.state = .atClosed) (hc : x.condOf a ≠ d.target.endCond)
    (hk : x.condOf a ≠ .contradictory) : x.damperSwitch a d =
      x.damperEnter a d.state (d.travelling x.now .drift) .damperState (some (.damperCause .drift)) := by
  obtain hs | hs := hs <;> simp only [Plant.damperSwitch, hs, hc, hk, if_false]

section
variable (hs : d.state = .switchFault)
include hs

theorem Plant.damperSwitch_of_still (hk : x.condOf a = .contradictory) : x.damperSwitch a d = x := by
  simp only [Plant.damperSwitch, hs, hk, if_true]

theorem Plant.damperSwitch_of_cleared (hc : x.condOf a = d.target.endCond) : x.damperSwitch a d =
    x.damperEnter a d.state d.arrived .damperState (some (.damperCause .switchClear)) := by
  have he := d.target.endCond_ne_contradictory
  simp only [Plant.damperSwitch, hs, hc, he, if_true, if_false]

theorem Plant.damperSwitch_of_clearing (hc : x.condOf a ≠ d.target.endCond) (hk : x.condOf a ≠ .contradictory) :
    x.damperSwitch a d =
      x.damperEnter a d.state (d.travelling x.now .switchClear) .damperState (some (.damperCause .switchClear)) := by
  simp only [Plant.damperSwitch, hs, hc, hk, if_false]

end

/-- Whatever the damper does, its inputs stand as the change has left them. -/
theorem Plant.damperSwitch_inputs : (x.damperSwitch a d).inputs = x.inputs := by
  by_cases hk : x.condOf a = .contradictory
  · by_cases hs : d.state = .switchFault
    · rw [x.damperSwitch_of_still a d hs hk]
    · rw [x.damperSwitch_of_contradictory a d hs hk]
      exact (x.enterSwitchFault_becomes a d).inputs
  · have travels (ht : d.state = .opening ∨ d.state = .closing ∨ d.state = .travelFault) :
        (x.damperSwitch a d).inputs = x.inputs := by
      by_cases hc : x.condOf a = d.target.endCond
      · obtain ⟨k, e⟩ := x.damperSwitch_of_end a d ht hc
        rw [e]
        exact (x.arrive_becomes a d k).inputs.trans (x.capture_inputs ..)
      · rw [x.damperSwitch_of_underway a d ht hc hk]
    have stands (hs : d.state = .atOpen ∨ d.state = .atClosed) : (x.damperSwitch a d).inputs = x.inputs := by
      by_cases hc : x.condOf a = d.target.endCond
      · rw [x.damperSwitch_of_held a d hs hc]
      · rw [x.damperSwitch_of_drift a d hs hc hk]
        exact (x.damperEnter_becomes ..).inputs
    cases hs : d.state with
    | opening => exact travels (.inl hs)
    | closing => exact travels (.inr (.inl hs))
    | travelFault => exact travels (.inr (.inr hs))
    | atOpen => exact stands (.inl hs)
    | atClosed => exact stands (.inr hs)
    | switchFault =>
      by_cases hc : x.condOf a = d.target.endCond
      · rw [x.damperSwitch_of_cleared a d hs hc]
        exact (x.damperEnter_becomes ..).inputs
      · rw [x.damperSwitch_of_clearing a d hs hc hk]
        exact (x.damperEnter_becomes ..).inputs

/-! ### The two events -/

variable {x a d} (h : x.chans.look a = .damper d)
include h

theorem Plant.switchChange_of_same {o c : Bool} (ho : o = (x.inputs.look a).first.debounced)
    (hc : c = (x.inputs.look a).second.debounced) : x.switchChange a o c = x := by
  unfold Plant.switchChange
  rw [h]
  exact if_pos ⟨ho, hc⟩

theorem Plant.switchChange_of_change {o c : Bool}
    (hn : ¬ (o = (x.inputs.look a).first.debounced ∧ c = (x.inputs.look a).second.debounced)) :
    x.switchChange a o c = (x.setSwitches a o c).damperSwitch a d := by
  unfold Plant.switchChange
  rw [h]
  exact if_neg hn

/-- The travel timer of a travelling damper expires: TRAVEL_FAULT, reported and handed to both (R74, R79). -/
theorem Plant.travelExpiry_of_travelling {t : Nat} (ht : d.timer = some t) (hs : d.state = .opening ∨ d.state = .closing) :
    x.travelExpiry a =
      ((((x.reach t).setChan a (.damper { d with state := .travelFault, timer := none })).report .travelFault
        (some (.actuator a)) (some (.damper .travelFault)) (d.cause.map .travelCause)).handPx a).handTs (.fault a) := by
  have sound : (DamperState.travelFault.isFault && !d.state.isFault) = true := by
    obtain hs | hs := hs <;> rw [hs] <;> rfl
  have alike : d.state = .atOpen ↔ DamperState.travelFault = .atOpen := by
    obtain hs | hs := hs <;> simp [hs]
  unfold Plant.travelExpiry
  rw [(x.damper?_eq_some a).mpr h]
  dsimp only
  rw [ht]
  dsimp only
  rw [if_pos hs]
  unfold Plant.damperEnter
  dsimp only
  rw [sound, if_pos rfl, Plant.handOpenness_of_alike _ _ _ alike]

end

section
variable (s : State) (hr : s.mode = .running)
include hr

theorem State.onInput_of_running (g h : Plant → Plant) : s.onInput g h = s.onPlant g := if_pos (beq_iff_eq.mpr hr)

theorem exec_switchChange_of_running (a : ActId) (o c : Bool) :
    exec (.switchChange a o c) s = .next (s.onPlant fun x => x.switchChange a o c) :=
  congrArg _ (s.onInput_of_running hr _ _)

theorem exec_travelTimerExpiry_of_running (a : ActId) :
    exec (.travelTimerExpiry a) s = .next (s.onPlant fun x => x.travelExpiry a) :=
  congrArg _ (s.whenRunning_of_running _ hr)

end

/-- Settles O40: the damper's equation for each state and condition, and what an arrival captures. -/
theorem aDamperFollowsItsSwitchesAndItsTimer : Obligations.ADamperFollowsItsSwitchesAndItsTimer := by
  intro s a d hr h x i
  refine ⟨fun o c => ?_, fun t ht hs => ?_⟩
  · intro y cond travels standing becomes stands travelling
    refine ⟨exec_switchChange_of_running s hr a o c, Plant.switchChange_of_same h, fun hn => ?_⟩
    have changed : y = (x.setSwitches a o c).damperSwitch a d := Plant.switchChange_of_change h hn
    have condOf : (x.setSwitches a o c).condOf a = cond := x.setSwitches_condOf a o c
    have inputs : y.inputs.look a = ⟨i.first.follow o, i.second.follow c⟩ := by
      rw [changed, Plant.damperSwitch_inputs, Plant.setSwitches_look]
    have becomes_of {p : Plant} {e : Damper} (eq : (x.setSwitches a o c).damperSwitch a d = p)
        (look : p.chans.look a = .damper e) : becomes e :=
      (congrArg (fun q : Plant => q.chans.look a) (changed.trans eq)).trans look
    have arrives (ht : travels) (hc : cond = d.target.endCond) :
        ∃ k, (x.setSwitches a o c).damperSwitch a d = (x.setSwitches a o c).arrive a d k :=
      Plant.damperSwitch_of_end _ a d ht (condOf.trans hc)
    refine ⟨inputs, ?_, ?_, fun ho => ?_, fun hc => ?_, fun ht hc => ?_, fun ht hc hk => ?_, fun start ht hc hk hs => ?_,
      fun ht hc hk => ?_, fun ht hk => ?_, fun hs hc hk => ?_, fun hs hc => ?_, fun hs hc hk => ?_, fun hs hk => ?_⟩
    · rw [inputs, Input.follow_debounced]
    · rw [inputs, Input.follow_debounced]
    · rw [inputs, Input.follow_of_same ho]
    · rw [inputs, Input.follow_of_same hc]
    · obtain ⟨k, e⟩ := arrives ht hc
      exact becomes_of e (Plant.arrive_becomes _ a d k).look
    · obtain ⟨k, e⟩ := arrives ht hc
      rw [changed, e, (Plant.arrive_becomes _ a d k).stats, d.captured_of_other _ hk]
      rfl
    · obtain ⟨k, e⟩ := arrives ht hc
      have captured : y.stats.look a = (x.stats.look a).capture (max 1 (x.now - start)) d.cfg.travelLimit := by
        rw [changed, e, (Plant.arrive_becomes _ a d k).stats, d.captured_of_command _ hk hs, Plant.capture_look]
        rfl
      dsimp only
      rw [captured]
      exact Stats.capture_spec ..
    · exact changed.trans (Plant.damperSwitch_of_underway _ a d ht (condOf ▸ hc) (condOf ▸ hk))
    · have sound : d.state ≠ .switchFault := by
        intro e
        simp [travels, standing, e] at ht
      exact becomes_of (Plant.damperSwitch_of_contradictory _ a d sound (condOf.trans hk))
        (Plant.enterSwitchFault_becomes _ a d).look
    · exact becomes_of (Plant.damperSwitch_of_drift _ a d hs (condOf ▸ hc) (condOf ▸ hk)) (Plant.damperEnter_becomes ..).look
    · have cleared := Plant.damperEnter_becomes (x.setSwitches a o c) a d.arrived d.state .damperState
        (some (.damperCause .switchClear))
      rw [← Plant.damperSwitch_of_cleared _ a d hs (condOf.trans hc), ← changed] at cleared
      exact ⟨cleared.look, cleared.stats⟩
    · exact becomes_of (Plant.damperSwitch_of_clearing _ a d hs (condOf ▸ hc) (condOf ▸ hk))
        (Plant.damperEnter_becomes ..).look
    · exact changed.trans (Plant.damperSwitch_of_still _ a d hs (condOf.trans hk))
  · rw [exec_travelTimerExpiry_of_running s hr]
    exact congrArg _ (s.onPlant_congr (Plant.travelExpiry_of_travelling h ht hs))

end Sys2Proof.Machine
end

section
/-!
SUPPORT. The duct interlock: what a damper that enters or leaves AT_OPEN hands to the fans, and what they do (R79, R87, R88): O42.
-/

namespace Sys2Proof.Machine

/-! ### The hand-off (R79, R105) -/

section
variable (x : Plant) (a : ActId)

theorem Plant.fansThrough_eq : x.fansThrough a = allActs.filter fun b => match x.chans.look b with
    | .fan f => f.cfg.path.contains a
    | _ => false := by
  unfold Plant.fansThrough
  congr 1
  funext b
  unfold Plant.fan?
  cases x.chans.look b <;> rfl

/-- The fans that a damper's entry to AT_OPEN or departure from it has been handed to, one at a time. -/
def Plant.openHanded (x : Plant) (a : ActId) (is : DamperState) : Plant :=
  if is = .atOpen then (x.fansThrough a).foldl Plant.pathMade x else (x.fansThrough a).foldl (fun y f => y.pathBroken f a) x

variable {was is : DamperState} {cfg : DamperCfg} (h : ¬ (was = .atOpen ↔ is = .atOpen))
include h

theorem Plant.handOpenness_of_path (hr : cfg.role = .path) : x.handOpenness a was is cfg = x.openHanded a is := by
  unfold Plant.handOpenness
  rw [if_neg fun e => h (iff_of_eq e), hr]
  rfl

theorem Plant.handOpenness_of_inlet (hr : cfg.role = .inlet) {g : GroupId} (hg : cfg.group = some g) :
    x.handOpenness a was is cfg = (x.openHanded a is).evaluate Plant.walk g := by
  unfold Plant.handOpenness
  rw [if_neg fun e => h (iff_of_eq e), hr, hg]
  rfl

end

theorem Plant.openHanded_atOpen (x : Plant) (a : ActId) : x.openHanded a .atOpen = (x.fansThrough a).foldl Plant.pathMade x :=
  if_pos rfl

theorem Plant.openHanded_of_ne (x : Plant) (a : ActId) {is : DamperState} (h : is ≠ .atOpen) :
    x.openHanded a is = (x.fansThrough a).foldl (fun y f => y.pathBroken f a) x := if_neg h

/-! ### Paths (R87) -/

/-- The fans' work leaves every path as it is: no damper takes part in it. -/
theorem Plant.Stirs.pathOpen {P : ActId → Prop} {x y : Plant} (h : Plant.Stirs P x y) (f : Fan) : y.pathOpen f = x.pathOpen f := by
  have damper (b : ActId) : y.damper? b = x.damper? b := by
    unfold Plant.damper?
    obtain e | ⟨-, g, r, hg, hr, -⟩ := h.look b
    · rw [e]
    · rw [hg, hr]
  simp only [Plant.pathOpen, damper]

theorem Plant.stopBegun_fansWork (x : Plant) (a : ActId) (broken : Option ActId) : Plant.FansWork x (x.stopBegun a broken) := by
  have touched {y : Plant} (h : Plant.FansWork x y) : Plant.FansWork x ((y.leaveHistory a).fanTouched Plant.walk a) :=
    (h.trans (Plant.leaveHistory_stirs ..)).trans
      (Plant.fanTouched_stirs (fun y hy => y.walk_stirs hy) _ a (Plant.restsOutside_all _) trivial)
  unfold Plant.stopBegun
  dsimp only
  split
  · exact touched ((x.fanEnter_stirs a trivial _ _).trans (.report ..))
  · exact touched (x.fanEnter_reportFan_stirs a trivial _ _ _)

/-! ### A path made (R87) -/

/-- No search for a grant starts while the stagger timer runs (R99). -/
theorem Plant.walk_of_stagger {x : Plant} (h : x.stagger.isSome = true) : x.walk = x := if_pos h

section
variable {x : Plant} {a : ActId} {f : Fan} (h : x.chans.look a = .fan f)
include h

theorem Plant.joinQueue_of_fan : x.joinQueue a =
    { x with queue := x.queue.filter (fun q => q.fan != a) ++ [⟨a, x.now, if f.requeue then .shed else .new⟩] } := by
  unfold Plant.joinQueue
  rw [(x.fan?_eq_some a).mpr h]

theorem Plant.pathMade_of_open (hs : f.state = .waitInterlock) (hp : x.pathOpen f = true) (ht : x.stagger.isSome = true) :
    (x.pathMade a).chans.look a = .fan { f with state := .waitPermit } ∧ (x.pathMade a).queue
      = x.queue.filter (fun q => q.fan != a) ++ [⟨a, x.now, if f.requeue then .shed else .new⟩] := by
  have entered : ((x.fanEnter a .waitPermit id).reportFan a .waitPermit .interlockMade).chans.look a
      = .fan { f with state := .waitPermit } := Plant.fanEnter_look h .waitPermit id
  obtain ⟨-, queue, stagger, -, now⟩ := Plant.fanEnter_of_fan h .waitPermit id
  unfold Plant.pathMade
  rw [(x.fan?_eq_some a).mpr h]
  dsimp only
  rw [if_pos ⟨hs, hp⟩, Plant.joinQueue_of_fan entered, Plant.walk_of_stagger (stagger ▸ ht)]
  exact ⟨entered, by rw [← queue, ← now]; rfl⟩

theorem Plant.pathMade_of_other (ho : f.state ≠ .waitInterlock ∨ x.pathOpen f = false) : x.pathMade a = x := by
  have still : ¬ (f.state = .waitInterlock ∧ x.pathOpen f = true) := fun ⟨hs, hp⟩ =>
    ho.elim (absurd hs) fun hn => absurd (hp.symm.trans hn) (by decide)
  unfold Plant.pathMade
  rw [(x.fan?_eq_some a).mpr h]
  exact if_neg still

/-! ### A path broken (R88, R92) -/

theorem Plant.pathBroken_of_energized (d : ActId) (hs : f.energized = true) :
    x.pathBroken a d = x.enterStopping Plant.walk a (some d) := by
  unfold Plant.pathBroken
  rw [(x.fan?_eq_some a).mpr h]
  exact if_pos hs

theorem Plant.pathBroken_of_waitPermit (d : ActId) (hs : f.state = .waitPermit) : x.pathBroken a d =
    ((x.leaveQueue a).fanEnter a .waitInterlock id).reportFan a .waitInterlock .interlock := by
  have off : ¬ f.energized = true := by simp [Fan.energized, FanState.energized, hs]
  unfold Plant.pathBroken
  rw [(x.fan?_eq_some a).mpr h]
  exact (if_neg off).trans (if_pos hs)

theorem Plant.pathBroken_of_other (d : ActId) (he : f.energized = false) (hs : f.state ≠ .waitPermit) :
    x.pathBroken a d = x := by
  unfold Plant.pathBroken
  rw [(x.fan?_eq_some a).mpr h]
  exact (if_neg (by simp [he])).trans (if_neg hs)

/-- A stop that ends with target ON and a broken path leaves the fan waiting for its interlock (R86, R92). -/
theorem Plant.completeStop_of_broken (ht : f.target ≠ .off) (hp : x.pathOpen f = false) :
    (x.completeStop Plant.walk a).chans.look a = .fan
      { f with state := .waitInterlock, runDownTimer := none, stopCause := none } := by
  have entered : ((x.fanEnter a .stopped fun f => { f with runDownTimer := none, stopCause := none }).reportFan a .stopped
      .stopped).chans.look a = .fan { f with state := .stopped, runDownTimer := none, stopCause := none } :=
    Plant.fanEnter_look h .stopped _
  unfold Plant.completeStop
  rw [(x.fan?_eq_some a).mpr h]
  dsimp only
  rw [if_neg ht]
  have broken : ((x.fanEnter a .stopped fun f => { f with runDownTimer := none, stopCause := none }).reportFan a .stopped
      .stopped).pathOpen f = false :=
    (Plant.Stirs.pathOpen (P := fun _ => True) (x.fanEnter_reportFan_stirs a trivial _ _ _) f).trans hp
  exact (Plant.startPath_of_broken entered Plant.walk broken).1

end

/-- With its path broken an energized fan is tripped; without proof the stop completes at once (R88, R92). -/
theorem Plant.pathBroken_look {x : Plant} {a : ActId} {f : Fan} (h : x.chans.look a = .fan f) (d : ActId)
    (he : f.energized = true) (hp : x.pathOpen f = false) : (x.pathBroken a d).chans.look a = .fan
      (if x.proofPresent a then { f.stopRecord x.now true .interlock with state := .stopping }
        else { f.stopRecord x.now false .interlock with
          state := if f.target = .off then .stopped else .waitInterlock, runDownTimer := none, stopCause := none }) := by
  have begun := x.stopBegun_look a (some d) h
  rw [Plant.pathBroken_of_energized h d he, Plant.enterStopping_eq]
  cases proof : x.proofPresent a with
  | true => rw [if_pos rfl, if_pos rfl, begun, proof]; rfl
  | false =>
    rw [proof] at begun
    rw [if_neg (by decide), if_neg (by decide)]
    by_cases ht : f.target = .off
    · rw [Plant.completeStop_of_off begun _ ht, if_pos ht]
      rfl
    · have broken : (x.stopBegun a (some d)).pathOpen f = false := ((x.stopBegun_fansWork a (some d)).pathOpen f).trans hp
      rw [Plant.completeStop_of_broken begun ht broken, if_neg ht]
      rfl

/-- Settles O42: the hand-off by the damper's role, and what a fan does by its state and its path. -/
theorem theInterlockStartsAndStopsFans : Obligations.TheInterlockStartsAndStopsFans := by
  refine ⟨fun x a was is cfg => ?_, fun x a d f h => ?_⟩
  · intro through made broken y
    have same : x.fansThrough a = through := x.fansThrough_eq a
    have made_eq : x.openHanded a .atOpen = made := (x.openHanded_atOpen a).trans (congrArg (List.foldl _ x) same)
    have broken_eq (hi : is ≠ .atOpen) : x.openHanded a is = broken :=
      (x.openHanded_of_ne a hi).trans (congrArg (List.foldl _ x) same)
    have enters (hw : was ≠ .atOpen) (hi : is = .atOpen) : ¬ (was = .atOpen ↔ is = .atOpen) := fun e => hw (e.mpr hi)
    have leaves (hw : was = .atOpen) (hi : is ≠ .atOpen) : ¬ (was = .atOpen ↔ is = .atOpen) := fun e => hi (e.mp hw)
    refine ⟨fun hw hi => x.handOpenness_of_alike a cfg (iff_of_false hw hi),
      fun hw hi => x.handOpenness_of_alike a cfg (iff_of_true hw hi), fun hw hi hr => ?_, fun hw hi hr => ?_,
      fun g hw hi hr hg => ?_, fun g hw hi hr hg => ?_⟩
    · exact (x.handOpenness_of_path a (enters hw hi) hr).trans (hi ▸ made_eq)
    · exact (x.handOpenness_of_path a (leaves hw hi) hr).trans (broken_eq hi)
    · rw [← made_eq, ← hi]
      exact x.handOpenness_of_inlet a (enters hw hi) hr hg
    · rw [← broken_eq hi]
      exact x.handOpenness_of_inlet a (leaves hw hi) hr hg
  · intro made cut out energized
    have on : energized ↔ f.energized = true := by
      simp only [energized, Fan.energized]
      cases f.state <;> simp [FanState.energized]
    refine ⟨fun hs hp ht => Plant.pathMade_of_open h hs hp ht, fun ho => Plant.pathMade_of_other h ho,
      fun hp => ⟨fun he proof => ?_, fun he proof => ?_, fun hs => ?_, fun he hs => ?_⟩⟩
    · rw [Plant.pathBroken_look h d (on.mp he) hp, proof]
      rfl
    · rw [Plant.pathBroken_look h d (on.mp he) hp, proof]
      rfl
    · have left : (x.leaveQueue a).chans.look a = .fan f := h
      rw [show cut = _ from Plant.pathBroken_of_waitPermit h d hs]
      exact ⟨Plant.fanEnter_look left _ _, (Plant.fanEnter_of_fan left _ _).2.1⟩
    · exact Plant.pathBroken_of_other h d (Bool.eq_false_iff.mpr fun e => he (on.mpr e)) hs

end Sys2Proof.Machine
end

section
/-!
SUPPORT. One sample of the inputs: what each input's record becomes, and the events that its channel brings (R66, R84, R141): O4.
-/

namespace Sys2Proof.Machine

/-! ### One sample of one input (R66) -/

/-- The sample differs from the debounced state, as the two before it did: the debounced state is about to change. -/
def Input.Flips (i : Input) : Prop := i.pin ≠ i.debounced ∧ 2 ≤ i.differing

/-- `j` is `i` with its run of differing samples counted on, or ended by a sample that agrees; of an input about to change it says
nothing. -/
def Input.Counted (i j : Input) : Prop :=
  (i.pin = i.debounced → j = { i with differing := 0 })
    ∧ (i.pin ≠ i.debounced → i.differing < 2 → j = { i with differing := i.differing + 1 })

/-- `v` is the debounced state after the sample. -/
def Input.Takes (i : Input) (v : Bool) : Prop := (i.Flips → v = i.pin) ∧ (¬ i.Flips → v = i.debounced)

section
variable {i : Input}

theorem Input.sample_of_flips (h : i.Flips) : i.sample = (⟨i.pin, i.pin, 0⟩, true) := by
  obtain ⟨differs, third⟩ := h
  unfold Input.sample
  rw [if_neg differs, if_neg (by omega)]

theorem Input.sample_of_agreeing (h : i.pin = i.debounced) : i.sample = ({ i with differing := 0 }, false) := if_pos h

theorem Input.sample_of_counting (h : i.pin ≠ i.debounced) (k : i.differing < 2) :
    i.sample = ({ i with differing := i.differing + 1 }, false) := (if_neg h).trans (if_pos k)

/-- An input whose debounced state does not change keeps it, and says that nothing changed. -/
theorem Input.sample_of_not_flips (h : ¬ i.Flips) : i.sample.1.debounced = i.debounced ∧ i.sample.2 = false := by
  by_cases agrees : i.pin = i.debounced
  · rw [Input.sample_of_agreeing agrees]
    exact ⟨rfl, rfl⟩
  · rw [Input.sample_of_counting agrees (Nat.lt_of_not_le fun k => h ⟨agrees, k⟩)]
    exact ⟨rfl, rfl⟩

theorem Input.sample_flips_iff : i.sample.2 = true ↔ i.Flips := by
  refine ⟨fun e => ?_, fun h => by rw [Input.sample_of_flips h]⟩
  by_contra h
  rw [(Input.sample_of_not_flips h).2] at e
  cases e

theorem Input.sample_takes : i.Takes i.sample.1.debounced :=
  ⟨fun h => by rw [Input.sample_of_flips h], fun h => (Input.sample_of_not_flips h).1⟩

theorem Input.Flips.counted (h : i.Flips) (j : Input) : i.Counted j :=
  ⟨fun e => absurd e h.1, fun _ k => absurd h.2 (Nat.not_le_of_lt k)⟩

theorem Input.sample_counted : i.Counted i.sample.1 :=
  ⟨fun h => by rw [Input.sample_of_agreeing h], fun h k => by rw [Input.sample_of_counting h k]⟩

/-- An input about to change may stay as it is for the event to change it. -/
theorem Input.held_counted : i.Counted (if i.sample.2 then i else i.sample.1) := by
  split
  case isTrue h => exact (Input.sample_flips_iff.mp h).counted i
  case isFalse => exact Input.sample_counted

end

/-! ### One sample of a channel (R66, R84) -/

/-- The channel whose inputs an event changes. -/
def Instr.inputChannel : Instr → Option ActId
  | .switchChange a _ _ | .proofArrives a | .proofLost a => some a
  | _ => none

section
variable (a : ActId) (c : Channel) (i : ChanInputs)

theorem sampleChan_counted : i.first.Counted (sampleChan a c i).1.first ∧ i.second.Counted (sampleChan a c i).1.second := by
  cases c with
  | fan f =>
    unfold sampleChan
    dsimp only
    split
    case isTrue h => exact ⟨(Input.sample_flips_iff.mp h).counted _, Input.sample_counted⟩
    case isFalse => exact ⟨Input.sample_counted, Input.sample_counted⟩
  | damper d => exact ⟨Input.held_counted, Input.held_counted⟩
  | unassigned => exact ⟨Input.held_counted, Input.held_counted⟩

theorem sampleChan_damper_event {d : Damper} (h : i.first.Flips ∨ i.second.Flips) : (sampleChan a (.damper d) i).2 =
    [.switchChange a i.first.sample.1.debounced i.second.sample.1.debounced] := by
  have flips : (i.first.sample.2 || i.second.sample.2) = true := by
    rwa [Bool.or_eq_true, Input.sample_flips_iff, Input.sample_flips_iff]
  exact if_pos flips

theorem sampleChan_damper_quiet {d : Damper} (ho : ¬ i.first.Flips) (hc : ¬ i.second.Flips) :
    (sampleChan a (.damper d) i).2 = [] := by
  have still : ¬ (i.first.sample.2 || i.second.sample.2) = true := by
    rw [Bool.or_eq_true, Input.sample_flips_iff, Input.sample_flips_iff]
    exact fun h => h.elim ho hc
  exact if_neg still

theorem sampleChan_fan_event {f : Fan} (h : i.first.Flips) : (sampleChan a (.fan f) i).2 =
    [if i.first.pin then .proofArrives a else .proofLost a] := by
  unfold sampleChan
  rw [Input.sample_of_flips h]
  rfl

theorem sampleChan_fan_quiet {f : Fan} (h : ¬ i.first.Flips) : (sampleChan a (.fan f) i).2 = [] := by
  unfold sampleChan
  dsimp only
  rw [if_neg (mt Input.sample_flips_iff.mp h)]

/-- The events of a channel's sample change that channel's inputs. -/
theorem sampleChan_inputChannel {e : Instr} (h : e ∈ (sampleChan a c i).2) : Instr.inputChannel e = some a := by
  have switched (h : e ∈ if i.first.sample.2 || i.second.sample.2 then
      [Instr.switchChange a i.first.sample.1.debounced i.second.sample.1.debounced] else []) :
      Instr.inputChannel e = some a := by
    split at h
    · rw [List.mem_singleton.mp h]
      rfl
    · cases h
  cases c with
  | fan f =>
    by_cases k : i.first.Flips
    · rw [sampleChan_fan_event a i k, List.mem_singleton] at h
      rw [h]
      split <;> rfl
    · rw [sampleChan_fan_quiet a i k] at h
      cases h
  | damper d => exact switched h
  | unassigned => exact switched h

end

/-! ### The two inputs of their own (R141, R164) -/

theorem sampleCommissioning_event {i : Input} (h : i.Flips) : (sampleCommissioning i).2 =
    [if i.pin then .commissioningInputOn else .commissioningInputOff] := by
  unfold sampleCommissioning
  rw [Input.sample_of_flips h]
  rfl

theorem sampleCommissioning_quiet {i : Input} (h : ¬ i.Flips) : (sampleCommissioning i).2 = [] := by
  unfold sampleCommissioning
  dsimp only
  rw [if_neg (mt Input.sample_flips_iff.mp h)]

theorem mem_sampleCommissioning {i : Input} {e : Instr} (h : e ∈ (sampleCommissioning i).2) :
    e = .commissioningInputOn ∨ e = .commissioningInputOff := by
  by_cases k : i.Flips
  · rw [sampleCommissioning_event k, List.mem_singleton] at h
    split at h
    · exact .inl h
    · exact .inr h
  · rw [sampleCommissioning_quiet k] at h
    cases h

theorem mem_sampleReset {i : Input} {e : Instr} (h : e ∈ (sampleReset i).2) :
    e = .resetInputAsserted ∨ e = .resetInputReleased := by
  unfold sampleReset at h
  dsimp only at h
  split at h
  · rw [List.mem_singleton] at h
    split at h
    · exact .inl h
    · exact .inr h
  · cases h

/-! ### The sample of all inputs -/

section
variable (s : State)

/-- The events of one sample of the inputs of channel `a`. -/
def State.channelEvents (a : ActId) : List Instr := (sampleChan a (s.plant.chans.look a) (s.plant.inputs.look a)).2

/-- The events that one sample of all inputs brings, as they join the queue. -/
def State.sampleEvents : List Instr :=
  allActs.flatMap s.channelEvents ++ (sampleCommissioning s.pmc.commissioning).2 ++ (sampleReset s.resetInput).2

theorem State.sample_pending : s.sample.pending = s.pending ++ s.sampleEvents := by
  simp only [State.sampleEvents, List.append_assoc]
  exact (List.append_assoc ..).trans (List.append_assoc ..)

theorem State.sample_ic : s.sample.site.ic = s.site.ic := by
  unfold State.sample
  dsimp only [State.onWorksOnly]

theorem State.sample_ports : s.sample.ports = s.ports := by
  unfold State.sample
  dsimp only [State.onWorksOnly]

theorem State.sample_samplePhase : s.sample.samplePhase = 0 := by
  unfold State.sample
  rfl

theorem State.sample_plant : s.sample.plant = { s.plant with inputs := s.sample.plant.inputs } := by
  unfold State.sample
  rfl

theorem State.sample_look (a : ActId) : s.sample.plant.inputs.look a =
    (sampleChan a (s.plant.chans.look a) (s.plant.inputs.look a)).1 := Table.look_of ..

theorem State.mem_sampleEvents {e : Instr} : e ∈ s.sampleEvents ↔ (∃ a, e ∈ s.channelEvents a)
    ∨ e ∈ (sampleCommissioning s.pmc.commissioning).2 ∨ e ∈ (sampleReset s.resetInput).2 := by
  simp [State.sampleEvents, allActs]

/-- The events of the commissioning input are its own sample's alone. -/
theorem State.commissioning_mem_sampleEvents {e : Instr} (h : e = .commissioningInputOn ∨ e = .commissioningInputOff) :
    e ∈ s.sampleEvents ↔ e ∈ (sampleCommissioning s.pmc.commissioning).2 := by
  rw [s.mem_sampleEvents]
  refine ⟨fun k => ?_, fun k => .inr (.inl k)⟩
  obtain ⟨a, k⟩ | k | k := k
  · have own := sampleChan_inputChannel _ _ _ k
    obtain rfl | rfl := h <;> cases own
  · exact k
  · obtain rfl | rfl := h <;> cases mem_sampleReset k <;> contradiction

/-- A list whose members but one bring nothing brings what that one does. -/
theorem flatMap_eq_of_only {α β : Type} {f : α → List β} {a : α} (ho : ∀ b, b ≠ a → f b = []) {l : List α} (hn : l.Nodup)
    (ha : a ∈ l) : l.flatMap f = f a := by
  induction l with
  | nil => cases ha
  | cons b l ih =>
    obtain ⟨fresh, hn⟩ := List.nodup_cons.mp hn
    rw [List.flatMap_cons]
    obtain rfl | ha := List.mem_cons.mp ha
    · have rest : l.flatMap f = [] := List.flatMap_eq_nil_iff.mpr fun c hc => ho c fun e => fresh (e ▸ hc)
      rw [rest, List.append_nil]
    · rw [ho b fun e => fresh (e ▸ ha), List.nil_append, ih hn ha]

/-- The events that change one channel's inputs are those of that channel's sample. -/
theorem State.filter_sampleEvents (a : ActId) {p : Instr → Bool} (hp : ∀ e, p e = true → Instr.inputChannel e = some a) :
    s.sampleEvents.filter p = (s.channelEvents a).filter p := by
  have none_of {l : List Instr} (h : ∀ e ∈ l, Instr.inputChannel e ≠ some a) : l.filter p = [] :=
    List.filter_eq_nil_iff.mpr fun e he k => h e he (hp e k)
  have channels : allActs.flatMap (fun b => (s.channelEvents b).filter p) = (s.channelEvents a).filter p := by
    refine flatMap_eq_of_only (fun b hb => none_of fun e he k => hb ?_) (List.nodup_finRange 64) (List.mem_finRange a)
    exact Option.some.inj ((sampleChan_inputChannel _ _ _ he).symm.trans k)
  have commissioning : (sampleCommissioning s.pmc.commissioning).2.filter p = [] := none_of fun e he => by
    obtain rfl | rfl := mem_sampleCommissioning he <;> nofun
  have reset : (sampleReset s.resetInput).2.filter p = [] := none_of fun e he => by
    obtain rfl | rfl := mem_sampleReset he <;> nofun
  rw [State.sampleEvents, List.filter_append, List.filter_append, List.filter_flatMap, channels, commissioning, reset,
    List.append_nil, List.append_nil]

end

/-- Settles O4: each input by its own sample, and each channel's events by the filter that picks them. -/
theorem anInputChangesAtItsThirdDifferingSample : Obligations.AnInputChangesAtItsThirdDifferingSample := by
  intro s t x flips counted takes
  refine ⟨fun early => if_pos early, fun due => ?_⟩
  have sampled : t = s.sample := if_neg (Nat.not_lt_of_le due)
  clear_value t
  subst sampled
  refine ⟨s.sampleEvents, s.sample_pending, s.sample_samplePhase, s.sample_plant, s.sample_ic, s.sample_ports, fun a => ?_,
    fun a d hd => ?_, fun a f hf => ?_, ?_⟩
  · rw [s.sample_look]
    exact sampleChan_counted ..
  · intro i mine
    have mine_eq : mine = (sampleChan a (.damper d) i).2.filter _ :=
      (s.filter_sampleEvents a fun e he => by
        split at he
        · exact congrArg some (beq_iff_eq.mp he)
        · cases he).trans (by rw [State.channelEvents, hd])
    refine ⟨fun ho hc => ?_, fun h => ⟨_, _, ?_, i.first.sample_takes, i.second.sample_takes⟩⟩
    · rw [mine_eq, sampleChan_damper_quiet a i ho hc]
      rfl
    · rw [mine_eq, sampleChan_damper_event a i h]
      simp
  · intro i mine
    have mine_eq : mine = (sampleChan a (.fan f) (x.inputs.look a)).2.filter _ :=
      (s.filter_sampleEvents a fun e he => by
        split at he
        · exact congrArg some (beq_iff_eq.mp he)
        · exact congrArg some (beq_iff_eq.mp he)
        · cases he).trans (by rw [State.channelEvents, hf])
    refine ⟨fun h => ?_, fun h => ?_⟩
    · rw [mine_eq, sampleChan_fan_quiet a _ h]
      rfl
    · rw [mine_eq, sampleChan_fan_event a _ h]
      cases i.pin <;> simp
  · intro com
    refine ⟨fun h => ?_, fun h => ?_⟩
    · rw [s.commissioning_mem_sampleEvents (.inl rfl), s.commissioning_mem_sampleEvents (.inr rfl),
        sampleCommissioning_quiet h]
      exact ⟨List.not_mem_nil, List.not_mem_nil⟩
    · rw [s.commissioning_mem_sampleEvents (by split <;> simp), sampleCommissioning_event h]
      exact List.mem_singleton_self _

end Sys2Proof.Machine
end

section
/-!
SUPPORT. The duct interlock (R88, R97) as one invariant of the channel side, with the fans set aside that a damper's departure from
AT_OPEN has not been handed to yet; the work of the fans, the start queue and the air balance keeps it.
-/

namespace Sys2Proof.Machine

/-- What the interlock goes by is the same of both channels: whether a damper stands AT_OPEN, and a fan's configuration and
state. -/
inductive Channel.Alike : Channel → Channel → Prop
  | refl (c : Channel) : Alike c c
  | damper {d e : Damper} (h : d.state = .atOpen ↔ e.state = .atOpen) : Alike (.damper d) (.damper e)
  | fan {f r : Fan} (hc : r.cfg = f.cfg) (hs : r.state = f.state) : Alike (.fan f) (.fan r)

/-- Every energized fan outside `E` draws through an open path; the start queue holds fans in WAIT_PERMIT alone, those outside `E`
with an open path; and the scaled set in the figures of a group among `G` holds energized fans of that group. -/
structure Plant.Interlocks (E : ActId → Prop) (G : GroupId → Prop) (x : Plant) : Prop where
  run : ∀ a f, x.chans.look a = .fan f → f.energized = true → ¬ E a → x.pathOpen f = true
  queued : ∀ e ∈ x.queue, ∃ f, x.chans.look e.fan = .fan f ∧ f.state = .waitPermit ∧ (¬ E e.fan → x.pathOpen f = true)
  scaled : ∀ g, G g → ∀ a ∈ (x.figs.look g).scaled,
    ∃ f, x.chans.look a = .fan f ∧ f.cfg.group = some g ∧ f.energized = true

/-- Fan `a` has no entry in the start queue. -/
def Plant.Unqueued (x : Plant) (a : ActId) : Prop := ∀ e ∈ x.queue, e.fan ≠ a

theorem Plant.unqueued_leaveQueue (x : Plant) (a : ActId) : (x.leaveQueue a).Unqueued a := fun e he => by
  simpa using (List.mem_filter.mp he).2

/-! ### Paths -/

/-- A channel lets a path through unless it is a damper that does not stand AT_OPEN (R83, R87). -/
def Channel.passes : Channel → Bool
  | .damper d => d.state == .atOpen
  | _ => true

theorem Plant.pathOpen_iff (x : Plant) (f : Fan) :
    x.pathOpen f = true ↔ ∀ b ∈ f.cfg.path, (x.chans.look b).passes = true := by
  have member (b : ActId) : (match x.damper? b with | some d => d.state == .atOpen | none => true)
      = (x.chans.look b).passes := by
    unfold Plant.damper?
    cases x.chans.look b <;> rfl
  unfold Plant.pathOpen
  rw [List.all_eq_true]
  exact forall₂_congr fun b _ => iff_of_eq (congrArg (· = true) (member b))

theorem Channel.Alike.passes {c e : Channel} (h : Channel.Alike c e) : e.passes = c.passes := by
  cases h with
  | refl => rfl
  | damper h => exact Bool.eq_iff_iff.mpr (by simpa [Channel.passes] using h.symm)
  | fan => rfl

/-- A path goes by the dampers and the fan's configuration. -/
theorem Plant.pathOpen_of_passes {x y : Plant} (h : ∀ b, (y.chans.look b).passes = (x.chans.look b).passes) {f r : Fan}
    (hc : r.cfg = f.cfg) : y.pathOpen r = x.pathOpen f := by
  refine Bool.eq_iff_iff.mpr ?_
  rw [Plant.pathOpen_iff, Plant.pathOpen_iff, hc]
  exact forall₂_congr fun b _ => by rw [h b]

theorem Plant.pathOpen_of_alike {x y : Plant} (h : ∀ b, Channel.Alike (x.chans.look b) (y.chans.look b)) {f r : Fan}
    (hc : r.cfg = f.cfg) : y.pathOpen r = x.pathOpen f := Plant.pathOpen_of_passes (fun b => (h b).passes) hc

/-- A fan keeps its path as it enters a state. -/
theorem Plant.fanEnter_pathOpen {x : Plant} {a : ActId} {f : Fan} (h : x.chans.look a = .fan f) (st : FanState) (g : Fan → Fan)
    {p q : Fan} (hc : q.cfg = p.cfg) : (x.fanEnter a st g).pathOpen q = x.pathOpen p := by
  refine Plant.pathOpen_of_passes (fun b => ?_) hc
  rw [(Plant.fanEnter_of_fan h st g).1, Table.look_put]
  split
  case isTrue e => rw [e, h]; rfl
  case isFalse => rfl

/-- A change of a fan's state leaves the figures as the last evaluation left them. -/
theorem Plant.fanEnter_figs (x : Plant) (b : ActId) (st : FanState) (g : Fan → Fan) : (x.fanEnter b st g).figs = x.figs := by
  unfold Plant.fanEnter
  split
  case h_1 f hf =>
    dsimp only
    rw [Plant.modFan_of_fan ((x.fan?_eq_some b).mp hf)]
    split <;> rfl
  case h_2 => rfl

/-! ### What the invariant goes by -/

section
variable {E E' : ActId → Prop} {G G' : GroupId → Prop} {x y : Plant}

theorem Plant.Interlocks.weaken (hx : x.Interlocks E G) (hG : ∀ g, G' g → G g) : x.Interlocks E G' :=
  ⟨hx.run, hx.queued, fun g hg => hx.scaled g (hG g hg)⟩

/-- A channel that is set aside needs to be so only while it is a fan that runs or awaits its permit. -/
theorem Plant.Interlocks.narrow (hx : x.Interlocks E G)
    (hE : ∀ a f, x.chans.look a = .fan f → f.energized = true ∨ f.state = .waitPermit → E a → E' a) : x.Interlocks E' G where
  run a f h on ha := hx.run a f h on fun k => ha (hE a f h (.inl on) k)
  queued e he := by
    obtain ⟨f, look, state, path⟩ := hx.queued e he
    exact ⟨f, look, state, fun ha => path fun k => ha (hE _ f look (.inr state) k)⟩
  scaled := hx.scaled

/-- Channels that are alike for the interlock, a queue with no new entry, and the figures as they stood. -/
theorem Plant.Interlocks.of_alike (hx : x.Interlocks E G) (h : ∀ b, Channel.Alike (x.chans.look b) (y.chans.look b))
    (hq : y.queue ⊆ x.queue) (hf : y.figs = x.figs) : y.Interlocks E G := by
  have fan {a : ActId} {f : Fan} (look : x.chans.look a = .fan f) :
      ∃ r, y.chans.look a = .fan r ∧ r.cfg = f.cfg ∧ r.state = f.state := by
    have alike := h a
    rw [look] at alike
    generalize y.chans.look a = c at alike
    cases alike with
    | refl => exact ⟨f, rfl, rfl, rfl⟩
    | fan hc hs => exact ⟨_, rfl, hc, hs⟩
  refine ⟨fun a r look he ha => ?_, fun e he => ?_, fun g hg a ha => ?_⟩
  · have alike := h a
    cases look' : x.chans.look a with
    | fan f =>
      obtain ⟨r', hr', hc, hs⟩ := fan look'
      obtain rfl : r = r' := Channel.fan.inj (look.symm.trans hr')
      rw [Plant.pathOpen_of_alike h hc]
      exact hx.run a f look' (by rw [← he, Fan.energized, Fan.energized, hs]) ha
    | _ => rw [look', look] at alike; cases alike
  · obtain ⟨f, look, state, path⟩ := hx.queued e (hq he)
    obtain ⟨r, hr, hc, hs⟩ := fan look
    exact ⟨r, hr, hs.trans state, fun ha => (Plant.pathOpen_of_alike h hc).trans (path ha)⟩
  · rw [hf] at ha
    obtain ⟨f, look, group, on⟩ := hx.scaled g hg a ha
    obtain ⟨r, hr, hc, hs⟩ := fan look
    exact ⟨r, hr, hc ▸ group, by rw [← on, Fan.energized, Fan.energized, hs]⟩

/-- Channels, start queue and figures as they stood. -/
theorem Plant.Interlocks.of_same (hx : x.Interlocks E G) (hc : y.chans = x.chans := by rfl) (hq : y.queue = x.queue := by rfl)
    (hf : y.figs = x.figs := by rfl) : y.Interlocks E G :=
  hx.of_alike (fun b => by rw [hc]; exact .refl _) (by rw [hq]; exact fun _ => id) hf

theorem Plant.Interlocks.foldl {α : Type} {g : Plant → α → Plant}
    (hg : ∀ x a, x.Interlocks E G → (g x a).Interlocks E G) (l : List α) {x : Plant} (hx : x.Interlocks E G) :
    (l.foldl g x).Interlocks E G := by
  induction l generalizing x with
  | nil => exact hx
  | cons a l ih => exact ih (hg x a hx)

end

/-! ### One fan -/

section
variable {E E' : ActId → Prop} {G G' : GroupId → Prop} {x : Plant} (hx : x.Interlocks E G) {a : ActId}
include hx

theorem Plant.Interlocks.report (k : ReportKind) (u : Option Subject) (n : Option NewState) (d : Option Detail) :
    (x.report k u n d).Interlocks E G := hx.of_same

theorem Plant.Interlocks.leaveHistory : (x.leaveHistory a).Interlocks E G := by
  unfold Plant.leaveHistory
  split
  · split
    · exact hx.of_same
    · exact hx
  · exact hx

theorem Plant.Interlocks.joinHistory : (x.joinHistory a).Interlocks E G := by
  unfold Plant.joinHistory
  split
  · split
    · exact hx.of_same
    · exact hx
  · exact hx

theorem Plant.Interlocks.leaveQueue : (x.leaveQueue a).Interlocks E G :=
  hx.of_alike (fun _ => .refl _) (fun _ he => List.mem_of_mem_filter he) rfl

/-- The start queue holds fans in WAIT_PERMIT alone. -/
theorem Plant.Interlocks.unqueued {f : Fan} (h : x.chans.look a = .fan f) (hs : f.state ≠ .waitPermit) : x.Unqueued a := by
  rintro e he rfl
  obtain ⟨r, hr, state, -⟩ := hx.queued e he
  obtain rfl : f = r := Channel.fan.inj (h.symm.trans hr)
  exact hs state

/-- A change that leaves configuration and state of a fan. -/
theorem Plant.Interlocks.modFan (a : ActId) {g : Fan → Fan}
    (hg : ∀ f, (g f).cfg = f.cfg ∧ (g f).state = f.state := by intro f; exact ⟨rfl, rfl⟩) :
    (x.modFan a g).Interlocks E G := by
  unfold Plant.modFan
  split
  case h_2 => exact hx
  case h_1 f hf =>
    refine hx.of_alike (fun b => ?_) (fun _ => id) rfl
    rw [Plant.setChan_chans, Table.look_put]
    split
    case isTrue e =>
      rw [e, hf]
      exact .fan (hg f).1 (hg f).2
    case isFalse => exact .refl _

theorem Plant.Interlocks.selfApplied : (x.selfApplied a).Interlocks E G := by
  unfold Plant.selfApplied
  split
  · split
    · exact hx.modFan a
    · split
      · exact hx.modFan a
      · exact hx
  · exact hx

theorem Plant.Interlocks.handSpeeds (g : GroupId) : (x.handSpeeds g).Interlocks E G :=
  Plant.Interlocks.foldl (fun _ p hy => hy.modFan p.1) _ hx

/-- Figures taken afresh hold energized fans of their group in the scaled set (R103). -/
theorem Plant.Interlocks.refresh (g : GroupId) (hG : ∀ k, G' k → k = g ∨ G k) : (x.refresh g).Interlocks E G' := by
  refine ⟨hx.run, hx.queued, fun k hk a ha => ?_⟩
  unfold Plant.refresh at ha
  dsimp only at ha
  by_cases e : k = g
  · subst e
    have member : a ∈ x.scaledSet k := by
      rw [Table.look_put_same] at ha
      unfold Plant.figures at ha
      dsimp only at ha
      split at ha <;> exact ha
    have inSet := (List.mem_filter.mp member).2
    unfold Plant.inSet at inSet
    split at inSet
    case h_1 f hf =>
      simp only [Bool.and_eq_true, beq_iff_eq] at inSet
      exact ⟨f, (x.fan?_eq_some a).mp hf, inSet.1.1, inSet.1.2⟩
    case h_2 => cases inSet
  · rw [Table.look_put_other _ _ _ _ e] at ha
    exact hx.scaled k ((hG k hk).resolve_left e) a ha

variable {f : Fan} (h : x.chans.look a = .fan f)
include h

/-- A fan that waits in no queue goes on to another state: to an energized one only with its path open, and out of one only where
its group is not among the groups that are left. -/
theorem Plant.Interlocks.fanEnter {st : FanState} {g : Fan → Fan} (hE : ∀ b, E b → b ≠ a → E' b) (hG : ∀ k, G' k → G k)
    (hq : x.Unqueued a) (run : st.energized = true → ¬ E' a → x.pathOpen f = true)
    (scaled : ∀ k, G' k → f.cfg.group = some k → f.energized = true → st.energized = true)
    (hg : ∀ f, (g f).cfg = f.cfg := by intro f; rfl) : (x.fanEnter a st g).Interlocks E' G' := by
  obtain ⟨chans, queue, -⟩ := Plant.fanEnter_of_fan h st g
  have same := Plant.fanEnter_look h st g
  have other {b : ActId} (hb : b ≠ a) : (x.fanEnter a st g).chans.look b = x.chans.look b := by
    rw [chans, Table.look_put_other _ _ _ _ hb]
  refine ⟨fun b r hr he hb => ?_, fun e he => ?_, fun k hk b hb => ?_⟩
  · by_cases e : b = a
    · subst e
      obtain rfl := Channel.fan.inj (same.symm.trans hr)
      exact (Plant.fanEnter_pathOpen h st g (hg f)).trans (run he hb)
    · rw [other e] at hr
      exact (Plant.fanEnter_pathOpen h st g rfl).trans (hx.run b r hr he fun k => hb (hE b k e))
  · rw [queue] at he
    obtain ⟨r, look, state, made⟩ := hx.queued e he
    exact ⟨r, (other (hq e he)).trans look, state,
      fun hb => (Plant.fanEnter_pathOpen h st g rfl).trans (made fun k => hb (hE _ k (hq e he)))⟩
  · rw [Plant.fanEnter_figs] at hb
    obtain ⟨r, look, group, on⟩ := hx.scaled k (hG k hk) b hb
    by_cases e : b = a
    · subst e
      obtain rfl := Channel.fan.inj (h.symm.trans look)
      exact ⟨_, same, by rw [← group]; exact congrArg FanCfg.group (hg f), scaled k hk group on⟩
    · exact ⟨r, (other e).trans look, group, on⟩

end

section
variable {E E' : ActId → Prop} {G : GroupId → Prop} {x : Plant} (hx : x.Interlocks E G) {a : ActId} {f : Fan}
  (h : x.chans.look a = .fan f)
include hx h

/-- A fan that is not energized and waits in no queue goes on to a state that is not energized. -/
theorem Plant.Interlocks.fanEnter_off {st : FanState} {g : Fan → Fan} (hq : x.Unqueued a) (off : f.energized = false)
    (hs : st.energized = false := by rfl) (hg : ∀ f, (g f).cfg = f.cfg := by intro f; rfl) :
    (x.fanEnter a st g).Interlocks E G :=
  hx.fanEnter h (fun _ k _ => k) (fun _ k => k) hq (fun on => absurd (hs.symm.trans on) (by decide))
    (fun _ _ _ on => absurd (off.symm.trans on) (by decide)) hg

/-- An energized fan goes on to an energized state. -/
theorem Plant.Interlocks.fanEnter_on {st : FanState} {g : Fan → Fan} (on : f.energized = true)
    (hs : st.energized = true := by rfl) (hg : ∀ f, (g f).cfg = f.cfg := by intro f; rfl) :
    (x.fanEnter a st g).Interlocks E G := by
  refine hx.fanEnter h (fun _ k _ => k) (fun _ k => k) (hx.unqueued h ?_) (fun _ => hx.run a f h on) (fun _ _ _ _ => hs) hg
  intro e
  rw [Fan.energized, e] at on
  cases on

/-- A fan in WAIT_PERMIT with its path open joins the tail of the queue (R97). -/
theorem Plant.Interlocks.joinQueue (hs : f.state = .waitPermit) (hp : x.pathOpen f = true) :
    (x.joinQueue a).Interlocks E G := by
  rw [Plant.joinQueue_of_fan h]
  refine ⟨hx.run, fun e he => ?_, hx.scaled⟩
  obtain he | he := List.mem_append.mp he
  · exact hx.queued e (List.mem_of_mem_filter he)
  · obtain rfl := List.mem_singleton.mp he
    exact ⟨f, h, hs, fun _ => hp⟩

end

theorem Fan.energized_of_state {f : Fan} {st : FanState} (hs : f.state = st) : f.energized = st.energized :=
  congrArg FanState.energized hs

theorem Fan.state_ne_waitPermit {f : Fan} (on : f.energized = true) : f.state ≠ .waitPermit := fun e => by
  rw [Fan.energized_of_state e] at on
  cases on

/-! ### Operations that may look for a grant -/

section
variable {E : ActId → Prop} {walk : Plant → Plant}
  (hw : ∀ {G : GroupId → Prop} {y : Plant}, y.Interlocks E G → (walk y).Interlocks E G)
  {G : GroupId → Prop} {x : Plant} (hx : x.Interlocks E G) {a : ActId}
include hw hx

/-- A fan that has entered WAIT_PERMIT with its path open, whatever reports it, joins the queue (R86, R87). -/
theorem Plant.Interlocks.permitAwaited {f : Fan} (h : x.chans.look a = .fan f) (hq : x.Unqueued a) (off : f.energized = false)
    (hp : x.pathOpen f = true) (c : FanCause) :
    (walk (((x.fanEnter a .waitPermit id).reportFan a .waitPermit c).joinQueue a)).Interlocks E G := by
  have entered : ((x.fanEnter a .waitPermit id).reportFan a .waitPermit c).Interlocks E G :=
    (hx.fanEnter_off h hq off (st := .waitPermit)).of_same
  exact hw (entered.joinQueue (Plant.fanEnter_look h .waitPermit id) rfl ((Plant.fanEnter_pathOpen h _ _ rfl).trans hp))

theorem Plant.Interlocks.startPath {f : Fan} (h : x.chans.look a = .fan f) (hq : x.Unqueued a) (off : f.energized = false) :
    (x.startPath walk a).Interlocks E G := by
  unfold Plant.startPath
  rw [(x.fan?_eq_some a).mpr h]
  dsimp only
  split
  case isTrue hp => exact hx.permitAwaited hw h hq off hp .command
  case isFalse => exact (hx.fanEnter_off h hq off (st := .waitInterlock)).of_same

theorem Plant.Interlocks.completeStop {f : Fan} (h : x.chans.look a = .fan f) (hq : x.Unqueued a) (off : f.energized = false) :
    (x.completeStop walk a).Interlocks E G := by
  have stopped := hx.fanEnter_off h (st := .stopped) (g := fun f => { f with runDownTimer := none, stopCause := none }) hq off
  unfold Plant.completeStop
  rw [(x.fan?_eq_some a).mpr h]
  dsimp only
  split
  · exact stopped.of_same
  · refine Plant.Interlocks.startPath hw stopped.of_same (Plant.fanEnter_look h _ _) ?_ rfl
    exact stopped.unqueued (Plant.fanEnter_look h _ _) (by simp)

/-- A fan of the scaled set leaves it as it is shed, and the figures are taken afresh (R108). -/
theorem Plant.Interlocks.shed {g : GroupId} (hg : G g) (ha : a ∈ (x.figs.look g).scaled) :
    (x.shed walk g a).Interlocks E G := by
  obtain ⟨f, look, group, on⟩ := hx.scaled g hg a ha
  have reported := hx.report .fanShed (some (.actuator a)) (some (.fan .stopping))
    (some (.capacity ((x.figs.look g).available / 1000)))
  have entered := reported.fanEnter (G' := fun k => G k ∧ k ≠ g) look (st := .stopping)
    (g := fun f => { f.stopRecord x.now (x.proofPresent a) .shed with requeue := true })
    (fun _ k _ => k) (fun _ k => k.1) (hx.unqueued look (Fan.state_ne_waitPermit on)) (fun k => absurd k (by decide))
    (fun k hk e _ => absurd (Option.some.inj (e.symm.trans group)) hk.2)
  have fresh := entered.leaveHistory (a := a) |>.refresh (G' := G) g fun k hk => or_iff_not_imp_left.mpr fun e => ⟨hk, e⟩
  have stopping := Plant.fanEnter_look (x := x.report .fanShed (some (.actuator a)) (some (.fan .stopping))
    (some (.capacity ((x.figs.look g).available / 1000)))) look .stopping
    fun f => { f.stopRecord x.now (x.proofPresent a) .shed with requeue := true }
  rw [← Plant.leaveHistory_chans _ a] at stopping
  unfold Plant.shed
  dsimp only
  split
  · exact fresh
  · exact fresh.completeStop hw stopping (fresh.unqueued stopping (by simp)) rfl

theorem Plant.Interlocks.shedAll {g : GroupId} (hg : G g) : (x.shedAll walk g).Interlocks E G := by
  refine Plant.Interlocks.foldl (fun y a hy => ?_) _ hx
  dsimp only
  split
  case isTrue h => exact hy.shed hw hg (by simpa using h.2)
  case isFalse => exact hy

/-- An evaluation sheds by the figures that it has taken afresh (R105, R108). -/
theorem Plant.Interlocks.evaluate (g : GroupId) : (x.evaluate walk g).Interlocks E G := by
  have fresh := hx.refresh (G' := fun k => k = g ∨ G k) g fun _ k => k
  have allocated := (fresh.shedAll hw (.inl rfl)).handSpeeds g
  have kept {y : Plant} (hy : y.Interlocks E fun k => k = g ∨ G k) : y.Interlocks E G :=
    hy.weaken fun _ k => .inr k
  unfold Plant.evaluate
  dsimp only
  split
  · exact kept fresh
  · split
    · exact kept allocated
    · exact kept (hw allocated)

theorem Plant.Interlocks.fanTouched : (x.fanTouched walk a).Interlocks E G := by
  have applied := hx.selfApplied (a := a)
  unfold Plant.fanTouched
  dsimp only
  split
  · exact applied.evaluate hw _
  · exact applied

end

/-! ### Grants and stops -/

section
variable {E E' : ActId → Prop} {G : GroupId → Prop} {x : Plant} (hx : x.Interlocks E G) {a : ActId}
include hx

theorem Plant.Interlocks.becomeRunning {f : Fan} (h : x.chans.look a = .fan f) (on : f.energized = true) :
    (x.becomeRunning a).Interlocks E G :=
  (hx.fanEnter_on h on (st := .running) (g := fun f => { f with proofTimer := none, faultCause := none })).of_same

/-- A grant meets a made interlock, and takes the fan out of the queue (R88, R97). -/
theorem Plant.Interlocks.grant (ha : x.waitsForPermit a = true) : (x.grant a).Interlocks E G := by
  unfold Plant.waitsForPermit at ha
  split at ha
  case h_2 => cases ha
  case h_1 f hf =>
    have look := (x.fan?_eq_some a).mp hf
    simp only [Bool.and_eq_true, beq_iff_eq] at ha
    obtain ⟨waits, path⟩ := ha
    have timed : ({ x with stagger := some (x.now + x.staggerInterval * 1000) } : Plant).Interlocks E G := hx.of_same
    have starting := timed.leaveQueue.fanEnter (G' := G) look (st := .starting)
      (g := fun f => { f with
        run := true, present := f.cfg.minSpeed, proofTimer := some (x.now + f.cfg.proofTime * 1000), requeue := false })
      (fun _ k _ => k) (fun _ k => k) (Plant.unqueued_leaveQueue _ a) (fun _ _ => path) (fun _ _ _ _ => rfl)
    have reported := starting.joinHistory (a := a) |>.report .fanState (some (.actuator a)) (some (.fan .starting))
      (some (.fanCause .grant))
    have touched := reported.fanTouched (walk := id) (a := a) fun hy => hy
    unfold Plant.grant
    dsimp only
    split
    case h_2 => exact touched
    case h_1 r hr =>
      split
      case isFalse => exact touched
      case isTrue proven =>
        have state : r.state = .starting := by simpa using (Bool.and_eq_true_iff.mp proven).2
        exact touched.becomeRunning ((Plant.fan?_eq_some _ a).mp hr) (Fan.energized_of_state state)

/-- A search for a grant passes over a fan with a broken path (R88, R99). -/
theorem Plant.Interlocks.walk : x.walk.Interlocks E G := by
  unfold Plant.walk
  split
  · exact hx
  · split
    case h_1 e he =>
      have found := List.find?_some he
      exact hx.grant (Bool.and_eq_true_iff.mp found).1
    case h_2 => exact hx

/-- A path made takes a fan from WAIT_INTERLOCK to the start queue (R87). -/
theorem Plant.Interlocks.pathMade : (x.pathMade a).Interlocks E G := by
  unfold Plant.pathMade
  split
  case h_2 => exact hx
  case h_1 f hf =>
    have look := (x.fan?_eq_some a).mp hf
    split
    case isTrue h =>
      refine hx.permitAwaited (fun hy => hy.walk) look (hx.unqueued look (by rw [h.1]; decide)) ?_ h.2 .interlockMade
      exact Fan.energized_of_state h.1
    case isFalse => exact hx

end

/-- No group: no figures of an evaluation under way. -/
abbrev noGroup : GroupId → Prop := fun _ => False

section
variable {E E' : ActId → Prop} {x : Plant} (hx : x.Interlocks E noGroup) {a : ActId} {f : Fan} (h : x.chans.look a = .fan f)
  (hE : ∀ b, E b → b ≠ a → E' b)
include hx h hE

/-- A stopping fan needs no open path any more (R88, R92). -/
theorem Plant.Interlocks.enterStopping (hs : f.state ≠ .waitPermit) (broken : Option ActId) :
    (x.enterStopping Plant.walk a broken).Interlocks E' noGroup := by
  have entered := hx.fanEnter (G' := noGroup) h (st := .stopping)
    (g := Fan.stopRecord x.now (x.proofPresent a) (stopCauseOf broken)) hE (fun _ k => k) (hx.unqueued h hs)
    (fun k => absurd k (by decide)) (fun _ k => k.elim)
  have begun : (x.stopBegun a broken).Interlocks E' noGroup := by
    cases broken with
    | some d => exact (entered.report ..).leaveHistory.fanTouched fun hy => hy.walk
    | none => exact (entered.report ..).leaveHistory.fanTouched fun hy => hy.walk
  rw [Plant.enterStopping_eq]
  split
  · exact begun
  · have look := x.stopBegun_look a broken h
    exact begun.completeStop (fun hy => hy.walk) look (begun.unqueued look (by simp)) rfl

/-- A fan to which a broken path has been handed neither runs nor waits in the queue with it broken (R88). -/
theorem Plant.Interlocks.pathBroken (d : ActId) : (x.pathBroken a d).Interlocks E' noGroup := by
  by_cases on : f.energized = true
  · rw [Plant.pathBroken_of_energized h d on]
    exact hx.enterStopping h hE (Fan.state_ne_waitPermit on) _
  · have off : f.energized = false := Bool.eq_false_iff.mpr on
    by_cases hs : f.state = .waitPermit
    · rw [Plant.pathBroken_of_waitPermit h d hs]
      have left := (hx.leaveQueue (a := a)).fanEnter (G' := noGroup) (E' := E') (st := .waitInterlock) (g := id) h hE
        (fun _ k => k) (Plant.unqueued_leaveQueue x a) (fun k => absurd k (by decide)) fun _ k => k.elim
      exact left.of_same
    · rw [Plant.pathBroken_of_other h d off hs]
      refine hx.narrow fun b r hr goes k => hE b k ?_
      rintro rfl
      obtain rfl := Channel.fan.inj (h.symm.trans hr)
      exact goes.elim on hs

end

end Sys2Proof.Machine
end

section
/-!
SUPPORT. Dampers, demands and the events of the channels keep the duct interlock, and with them every step: O8.
-/

namespace Sys2Proof.Machine

/-- The interlock as a step finds and leaves it: no fan set aside, no evaluation under way. -/
abbrev Plant.Interlocked (x : Plant) : Prop := x.Interlocks (fun _ => False) noGroup

theorem State.interlockHolds_iff (s : State) : s.InterlockHolds ↔ (s.mode = .running → s.plant.Interlocked) := by
  have fan (x : Plant) (a : ActId) :
      x.interlocked a = true ↔ ∀ f, x.chans.look a = .fan f → f.energized = true → x.pathOpen f = true := by
    unfold Plant.interlocked Plant.fan?
    cases x.chans.look a with
    | fan f => cases on : f.energized <;> simp [on]
    | _ => simp
  have waits (x : Plant) (a : ActId) :
      x.waitsForPermit a = true ↔ ∃ f, x.chans.look a = .fan f ∧ f.state = .waitPermit ∧ x.pathOpen f = true := by
    unfold Plant.waitsForPermit Plant.fan?
    cases x.chans.look a <;> simp
  unfold State.InterlockHolds
  refine forall_congr' fun _ => ?_
  simp only [fan, waits]
  constructor
  · rintro ⟨run, queued⟩
    refine ⟨fun a f h on _ => run a f h on, fun e he => ?_, fun _ k => k.elim⟩
    obtain ⟨f, look, state, path⟩ := queued e he
    exact ⟨f, look, state, fun _ => path⟩
  · intro hx
    refine ⟨fun a f h on => hx.run a f h on id, fun e he => ?_⟩
    obtain ⟨f, look, state, path⟩ := hx.queued e he
    exact ⟨f, look, state, path id⟩

/-! ### Dampers -/

section
variable {x : Plant} {a : ActId}

/-- The fans through a damper that leaves AT_OPEN are set aside until the departure has been handed to them (R79, R88). -/
def Plant.TrippedBy (x : Plant) (a : ActId) (was is : DamperState) (b : ActId) : Prop :=
  was = .atOpen ∧ is ≠ .atOpen ∧ b ∈ x.fansThrough a

theorem Plant.mem_fansThrough {b : ActId} {f : Fan} (h : x.chans.look b = .fan f) (ha : a ∈ f.cfg.path) :
    b ∈ x.fansThrough a := by
  rw [Plant.fansThrough_eq]
  refine List.mem_filter.mpr ⟨List.mem_finRange b, ?_⟩
  rw [h]
  exact List.contains_iff_mem.mpr ha

/-- A damper's new record leaves open every path but those that lead through it where it leaves AT_OPEN. -/
theorem Plant.Interlocked.setDamper (hx : x.Interlocked) {d e : Damper} (h : x.chans.look a = .damper d) :
    (x.setChan a (.damper e)).Interlocks ((x.setChan a (.damper e)).TrippedBy a d.state e.state) noGroup := by
  have fan {b : ActId} {f : Fan} : (x.setChan a (.damper e)).chans.look b = .fan f ↔ x.chans.look b = .fan f := by
    rw [Plant.setChan_chans, Table.look_put]
    split
    case isTrue k => rw [k, h]; simp
    case isFalse => exact Iff.rfl
  have path {b : ActId} {f : Fan} (look : x.chans.look b = .fan f) (hp : x.pathOpen f = true)
      (hb : ¬ (x.setChan a (.damper e)).TrippedBy a d.state e.state b) : (x.setChan a (.damper e)).pathOpen f = true := by
    rw [Plant.pathOpen_iff] at hp ⊢
    intro c hc
    rw [Plant.setChan_chans, Table.look_put]
    split
    case isFalse => exact hp c hc
    case isTrue k =>
      subst k
      have was : d.state = .atOpen := by
        have passes := hp c hc
        rw [h] at passes
        simpa [Channel.passes] using passes
      have stays : e.state = .atOpen := by_contra fun leaves => hb ⟨was, leaves, Plant.mem_fansThrough (fan.mpr look) hc⟩
      simp [Channel.passes, stays]
  refine ⟨fun b f look on hb => path (fan.mp look) (hx.run b f (fan.mp look) on id) hb, fun q hq => ?_, fun _ k => k.elim⟩
  obtain ⟨f, look, waits, hp⟩ := hx.queued q hq
  exact ⟨f, fan.mpr look, waits, path look (hp id)⟩

/-- A departure handed to one fan after another. -/
theorem Plant.Interlocks.foldl_pathBroken (l : List ActId) {x : Plant} (hx : x.Interlocks (· ∈ l) noGroup) :
    (l.foldl (fun y f => y.pathBroken f a) x).Interlocked := by
  induction l generalizing x with
  | nil => exact hx.narrow fun _ _ _ _ k => absurd k List.not_mem_nil
  | cons b l ih =>
    have rest (c : ActId) (hc : c ∈ b :: l) (hb : c ≠ b) : c ∈ l := (List.mem_cons.mp hc).resolve_left hb
    refine ih ?_
    cases h : x.chans.look b with
    | fan f => exact hx.pathBroken h rest a
    | _ =>
      have same : x.pathBroken b a = x := by simp [Plant.pathBroken, Plant.fan?, h]
      dsimp only
      rw [same]
      refine hx.narrow fun c f look _ k => rest c k ?_
      rintro rfl
      rw [h] at look
      cases look

/-- The hand-off of an entry to AT_OPEN or a departure from it (R79). -/
theorem Plant.Interlocks.handOpenness {was is : DamperState} {cfg : DamperCfg}
    (hx : x.Interlocks (x.TrippedBy a was is) noGroup) :
    (x.handOpenness a was is cfg).Interlocked := by
  by_cases alike : was = .atOpen ↔ is = .atOpen
  · rw [Plant.handOpenness_of_alike _ _ _ alike]
    exact hx.narrow fun _ _ _ _ k => k.2.1 (alike.mp k.1)
  · have handed : (x.openHanded a is).Interlocked := by
      by_cases opens : is = .atOpen
      · rw [opens, Plant.openHanded_atOpen]
        exact Plant.Interlocks.foldl (fun _ _ hy => hy.pathMade) _ (hx.narrow fun _ _ _ _ k => k.2.1 opens)
      · rw [Plant.openHanded_of_ne _ _ opens]
        exact Plant.Interlocks.foldl_pathBroken _ (hx.narrow fun _ _ _ _ k => k.2.2)
    unfold Plant.handOpenness
    rw [if_neg fun e => alike (iff_of_eq e)]
    dsimp only
    split
    · exact handed.evaluate (fun hy => hy.walk) _
    · exact handed

/-- A damper goes from the state it stands in to a new record. -/
theorem Plant.Interlocked.damperEnter (hx : x.Interlocked) {d : Damper} (h : x.chans.look a = .damper d) (e : Damper)
    (k : ReportKind) (detail : Option Detail) : (x.damperEnter a d.state e k detail).Interlocked := by
  have entered := hx.setDamper h (e := e)
  unfold Plant.damperEnter
  dsimp only
  split
  · exact Plant.Interlocks.handOpenness entered.of_same
  · exact Plant.Interlocks.handOpenness entered.of_same

end

section
variable {x : Plant} (hx : x.Interlocked) (a : ActId)
include hx

theorem Plant.Interlocked.setChan {c : Channel} (hc : Channel.Alike (x.chans.look a) c) : (x.setChan a c).Interlocked := by
  refine hx.of_alike (fun b => ?_) (fun _ => id) rfl
  rw [Plant.setChan_chans, Table.look_put]
  split
  case isTrue e => rw [e]; exact hc
  case isFalse => exact .refl _

/-- Every channel changed alike. -/
theorem Plant.Interlocked.map {g : Channel → Channel} (hg : ∀ c, Channel.Alike c (g c)) :
    ({ x with chans := x.chans.map g } : Plant).Interlocked :=
  hx.of_alike (fun b => by rw [Table.look_map]; exact hg _) (fun _ => id) rfl

theorem Plant.Interlocked.reach (d : Nat) : (x.reach d).Interlocked := by
  refine hx.of_alike (fun b => ?_) (fun _ => id) rfl
  obtain e | e := x.reach_look d b <;> rw [e]
  · exact .refl _
  · cases x.chans.look b with
    | fan f => exact .fan rfl rfl
    | _ => exact .refl _

theorem Plant.Interlocked.slewUpdate : x.slewUpdate.Interlocked :=
  hx.map fun c => by
    unfold Channel.slew
    split
    · split
      · exact .fan rfl rfl
      · exact .refl _
    · exact .refl c

theorem Plant.Interlocked.damperTarget (p : DamperPos) : (x.damperTarget a p).Interlocked := by
  unfold Plant.damperTarget
  split
  case h_2 => exact hx
  case h_1 d hd =>
    have look := (x.damper?_eq_some a).mp hd
    split
    · exact hx
    · dsimp only
      split
      · exact hx.setChan a (by rw [look]; exact .damper Iff.rfl)
      · exact hx.damperEnter look _ _ _
      · exact hx.damperEnter look _ _ _
      iterate 3
        · split
          · exact hx.damperEnter look _ _ _
          · exact hx.damperEnter look _ _ _

variable {a} in
/-- A damper acts on its switches (R70 to R73, R75). -/
theorem Plant.Interlocked.damperSwitch {d : Damper} (h : x.chans.look a = .damper d) : (x.damperSwitch a d).Interlocked := by
  have faulted : (x.enterSwitchFault a d).Interlocked := hx.damperEnter h _ _ _
  have arrived (k : ReportKind) : (x.arrive a d k).Interlocked := by
    have captured : (x.capture a d.cfg.travelLimit (d.captured x.now)).Interlocked := by
      cases d.captured x.now <;> exact hx.of_same
    exact captured.damperEnter ((congrArg (Table.look · a) (Plant.capture_chans ..)).trans h) _ _ _
  unfold Plant.damperSwitch
  dsimp only
  cases hs : d.state with
  | opening | closing | travelFault =>
    dsimp only
    split
    · exact arrived _
    · split
      · exact faulted
      · exact hx
  | atOpen | atClosed =>
    dsimp only
    split
    · exact faulted
    · split
      · exact hx
      · exact hs ▸ hx.damperEnter h _ _ _
  | switchFault =>
    dsimp only
    split
    · exact hx
    · split
      · exact hs ▸ hx.damperEnter h _ _ _
      · exact hs ▸ hx.damperEnter h _ _ _

theorem Plant.Interlocked.switchChange (o c : Bool) : (x.switchChange a o c).Interlocked := by
  have switched : (x.setSwitches a o c).Interlocked := hx.of_same
  unfold Plant.switchChange
  dsimp only
  split
  case h_1 => exact switched
  case h_2 => exact hx
  case h_3 d hd =>
    split
    · exact hx
    · exact switched.damperSwitch hd

theorem Plant.Interlocked.travelExpiry : (x.travelExpiry a).Interlocked := by
  unfold Plant.travelExpiry
  split
  case h_2 => exact hx
  case h_1 d hd =>
    have look := (x.damper?_eq_some a).mp hd
    split
    · split
      · refine (hx.reach _).damperEnter ?_ _ _ _
        obtain e | e := x.reach_look _ a <;> rw [e, look]
        rfl
      · exact hx
    · exact hx

theorem Plant.Interlocked.clearDamper : (x.clearDamper a).Interlocked := by
  unfold Plant.clearDamper
  split
  case h_2 => exact hx
  case h_1 d hd =>
    split
    · exact hx.damperEnter ((x.damper?_eq_some a).mp hd) _ _ _
    · exact hx

/-! ### Fans -/

variable {a} in
/-- A fan takes a target by its state (R86). -/
theorem Plant.Interlocked.fanTarget {f : Fan} (h : x.chans.look a = .fan f) (t : FanTarget) (c : ResolvedClass) :
    (x.fanTarget a t c).Interlocked := by
  have aimed : (x.setChan a (.fan (f.aimed t c))).Interlocked := hx.setChan a (by rw [h]; exact .fan rfl rfl)
  have look : (x.setChan a (.fan (f.aimed t c))).chans.look a = .fan (f.aimed t c) := Table.look_put_same ..
  have off {st : FanState} (hs : f.state = st) (he : st.energized = false := by rfl) : (f.aimed t c).energized = false :=
    (Fan.energized_of_state (f := f.aimed t c) hs).trans he
  have unqueued {st : FanState} (hs : f.state = st) (hw : st ≠ .waitPermit := by decide) :
      (x.setChan a (.fan (f.aimed t c))).Unqueued a := aimed.unqueued look (ne_of_eq_of_ne hs hw)
  have energized (hs : f.state = .starting ∨ f.state = .running ∨ f.state = .runFault) : (x.fanTarget a t c).Interlocked := by
    rw [Plant.fanTarget_of_energized h t c hs]
    split
    · refine aimed.enterStopping look (fun _ k _ => k) ?_ none
      show f.state ≠ .waitPermit
      obtain hs | hs | hs := hs <;> rw [hs] <;> decide
    · split
      · exact aimed.fanTouched fun hy => hy.walk
      · exact aimed
  cases hs : f.state with
  | stopped =>
    rw [Plant.fanTarget_of_stopped h t c hs]
    split
    · exact aimed.startPath (fun hy => hy.walk) look (unqueued hs) (off hs)
    · exact aimed
  | waitInterlock =>
    rw [Plant.fanTarget_of_waitInterlock h t c hs]
    split
    · exact (aimed.fanEnter_off look (st := .stopped) (g := id) (unqueued hs) (off hs)).of_same
    · exact aimed
  | waitPermit =>
    rw [Plant.fanTarget_of_waitPermit h t c hs]
    split
    · exact (aimed.leaveQueue.fanEnter_off look (st := .stopped) (g := id) (Plant.unqueued_leaveQueue _ a) (off hs)).of_same
    · split
      · exact aimed.walk
      · exact aimed
  | starting => exact energized (.inl hs)
  | running => exact energized (.inr (.inl hs))
  | runFault => exact energized (.inr (.inr hs))
  | stopping =>
    rw [Plant.fanTarget_of_stopping h t c (.inl hs)]
    exact aimed
  | stopFault =>
    rw [Plant.fanTarget_of_stopping h t c (.inr hs)]
    exact aimed

theorem Plant.Interlocked.clearFan : (x.clearFan a).Interlocked := by
  unfold Plant.clearFan
  split
  case h_2 => exact hx
  case h_1 f hf =>
    have look := (x.fan?_eq_some a).mp hf
    split
    case h_1 hs =>
      have starting := hx.fanEnter_on look (st := .starting) (g := fun f =>
        { f with faultCause := none, present := f.cfg.minSpeed, proofTimer := some (x.now + f.cfg.proofTime * 1000) })
        (Fan.energized_of_state hs)
      exact starting.of_same
    case h_2 hs =>
      have stopping := hx.fanEnter_off look (st := .stopping)
        (g := fun f => { f with runDownTimer := some (x.now + f.cfg.runDown * 1000) })
        (hx.unqueued look (by rw [hs]; decide)) (Fan.energized_of_state hs)
      exact stopping.of_same
    case h_3 => exact hx

theorem Plant.Interlocked.proofArrives : (x.proofArrives a).Interlocked := by
  have proven : (x.setProof a true).Interlocked := hx.of_same
  unfold Plant.proofArrives
  split
  case h_1 => exact hx
  case h_2 => exact proven
  case h_3 f hf =>
    split
    · exact hx
    · split
      case isTrue hs =>
        refine proven.becomeRunning hf ?_
        obtain hs | hs := hs <;> exact Fan.energized_of_state hs
      case isFalse => exact proven

theorem Plant.Interlocked.proofLost : (x.proofLost a).Interlocked := by
  have lost : (x.setProof a false).Interlocked := hx.of_same
  have completes {f : Fan} (h : x.chans.look a = .fan f) {st : FanState} (hs : f.state = st) (hw : st ≠ .waitPermit)
      (he : st.energized = false) : ((x.setProof a false).completeStop Plant.walk a).Interlocked :=
    lost.completeStop (fun hy => hy.walk) h (lost.unqueued h (ne_of_eq_of_ne hs hw)) ((Fan.energized_of_state hs).trans he)
  unfold Plant.proofLost
  split
  case h_1 => exact hx
  case h_2 => exact lost
  case h_3 f hf =>
    split
    · exact hx
    · dsimp only
      split
      case h_1 hs =>
        have fault := lost.fanEnter_on hf (st := .runFault) (g := fun f => { f with faultCause := some .proofLost })
          (Fan.energized_of_state hs)
        exact fault.of_same
      case h_2 hs => exact completes hf hs (by decide) rfl
      case h_3 hs => exact completes hf hs (by decide) rfl
      case h_4 => exact lost

theorem Plant.Interlocked.proofExpiry : (x.proofExpiry a).Interlocked := by
  unfold Plant.proofExpiry
  split
  case h_2 => exact hx
  case h_1 f hf =>
    split
    case h_2 => exact hx
    case h_1 d hs _ =>
      obtain ⟨r, look, state⟩ := Plant.reach_fan_state ((x.fan?_eq_some a).mp hf) d
      have fault := (hx.reach d).fanEnter_on look (st := .runFault)
        (g := fun f => { f with proofTimer := none, faultCause := some .noProof }) (Fan.energized_of_state (state.trans hs))
      exact fault.of_same

theorem Plant.Interlocked.runDownExpiry : (x.runDownExpiry a).Interlocked := by
  unfold Plant.runDownExpiry
  split
  case h_2 => exact hx
  case h_1 f hf =>
    split
    case h_2 => exact hx
    case h_1 d hs _ =>
      obtain ⟨r, look, state⟩ := Plant.reach_fan_state ((x.fan?_eq_some a).mp hf) d
      have fault := (hx.reach d).fanEnter_off look (st := .stopFault) (g := fun f => { f with runDownTimer := none })
        ((hx.reach d).unqueued look (by rw [state, hs]; decide)) (Fan.energized_of_state (state.trans hs))
      exact fault.of_same

theorem Plant.Interlocked.staggerExpiry : x.staggerExpiry.Interlocked := by
  unfold Plant.staggerExpiry
  split
  case h_2 => exact hx
  case h_1 d _ =>
    have reached : ({ x.reach d with stagger := none } : Plant).Interlocked := (hx.reach d).of_same
    exact reached.walk

/-! ### Demands -/

theorem Plant.Interlocked.channelTakes (r : Resolved) : (x.channelTakes a r).Interlocked := by
  unfold Plant.channelTakes
  split
  · exact hx.damperTarget a _
  · rename_i t _
    cases h : x.fan? a with
    | some f => exact hx.fanTarget ((x.fan?_eq_some a).mp h) t r.cls
    | none =>
      unfold Plant.fanTarget
      rw [h]
      exact hx

/-- A changed demand list and all that it hands on (R49). -/
theorem Plant.Interlocked.setDemands (l : List Demand) : (x.setDemands a l).Interlocked := by
  have listed : ({ x with demands := x.demands.put a l } : Plant).Interlocked := hx.of_same
  unfold Plant.setDemands
  dsimp only
  split
  · split
    · exact listed
    · unfold Plant.handOff
      dsimp only
      split
      · exact (listed.channelTakes a _).of_same
      · exact (Plant.Interlocked.channelTakes (listed.report ..) a _).of_same
  · exact listed

end

/-! ### Every step -/

/-- Every operation on the channel side keeps the duct interlock. -/
theorem Plant.Acts.interlocked {x y : Plant} (h : Plant.Acts x y) (hx : x.Interlocked) : y.Interlocked := by
  induction h with
  | refl => exact hx
  | trans _ _ ih ih' => exact ih' (ih hx)
  | reach x t => exact hx.reach t
  | setDemands x a l => exact hx.setDemands a l
  | clearDamper x a => exact hx.clearDamper a
  | clearFan x a => exact hx.clearFan a
  | switchChange x a o c => exact hx.switchChange a o c
  | travelExpiry x a => exact hx.travelExpiry a
  | proofArrives x a => exact hx.proofArrives a
  | proofLost x a => exact hx.proofLost a
  | proofExpiry x a => exact hx.proofExpiry a
  | runDownExpiry x a => exact hx.runDownExpiry a
  | staggerExpiry x => exact hx.staggerExpiry
  | slewUpdate x => exact hx.slewUpdate
  | report | sampled | dueTaken | notesTaken | ffRead | blRead => exact hx.of_same

theorem FanCfg.derive_energized (c : FanCfg) (proof : Bool) : (c.derive proof).energized = false := by
  cases proof <;> rfl

/-- At the end of a start-up operation no fan runs and none waits in the queue (R82). -/
theorem State.completeStartUp_interlocked (kind : StartKind) (s : State) : (s.completeStartUp kind).plant.Interlocked := by
  refine ⟨fun a f h on _ => ?_, fun e he => absurd he List.not_mem_nil, fun _ k => k.elim⟩
  obtain ⟨c, i, -, look⟩ := s.completeStartUp_look kind a
  rw [look] at h
  cases c with
  | fan c =>
    rw [← Channel.fan.inj h, c.derive_energized] at on
    cases on
  | _ => cases h

/-- Settles O8: each operation of the channel side keeps the interlock, and the end of a start-up operation has no fan energized
and none queued. -/
theorem everyStepKeepsTheDuctInterlock : Obligations.EveryStepKeepsTheDuctInterlock := by
  intro s t h e
  rw [State.interlockHolds_iff] at h ⊢
  intro ht
  obtain ⟨hr, acts⟩ | ⟨kind, u, rfl⟩ := step_acts_or_starts e ht
  · exact acts.interlocked (h hr)
  · exact u.completeStartUp_interlocked kind

end Sys2Proof.Machine
end

section
/-!
SUPPORT. A fan by its proof, its timers and the slew update (R84, R90 to R92, R94): O41.
-/

namespace Sys2Proof.Machine

/-- Fan `a` takes the record `r`, handed to the Plan Executor and reported (R101). -/
def Plant.fanBecomes (x : Plant) (a : ActId) (r : Fan) (c : FanCause) : Plant :=
  ((x.setChan a (.fan r)).handPx a).reportFan a r.state c

/-- So too where the fan enters a fault state, which is handed to the Test Sequencer besides (R101). -/
def Plant.fanFails (x : Plant) (a : ActId) (r : Fan) (c : FanCause) : Plant :=
  (((x.setChan a (.fan r)).handPx a).handTs (.fault a)).reportFan a r.state c

/-- The fan's record as its stop is completed (R92). -/
def Fan.halted (f : Fan) : Fan := { f with state := .stopped, runDownTimer := none, stopCause := none }

section
variable {x : Plant} {a : ActId} {f : Fan} (h : x.chans.look a = .fan f)
include h

/-! ### Entries to a state -/

theorem Plant.fanEnter_reportFan_of_sound {st : FanState} (g : Fan → Fan) (c : FanCause) (hs : st.isFault = false) :
    (x.fanEnter a st g).reportFan a st c = x.fanBecomes a { g f with state := st } c := by
  rw [Plant.fanEnter_of_sound h g hs]
  rfl

theorem Plant.fanEnter_reportFan_of_fault {st : FanState} (g : Fan → Fan) (c : FanCause) (hs : st.isFault = true)
    (hf : f.state.isFault = false) : (x.fanEnter a st g).reportFan a st c = x.fanFails a { g f with state := st } c := by
  unfold Plant.fanEnter
  rw [(x.fan?_eq_some a).mpr h]
  dsimp only
  rw [hs, hf, Plant.modFan_of_fan h]
  rfl

/-- The record that a fan takes is no matter of its path (R87). -/
theorem Plant.fanBecomes_pathOpen (r : Fan) (c : FanCause) {p q : Fan} (hc : q.cfg = p.cfg) :
    (x.fanBecomes a r c).pathOpen q = x.pathOpen p :=
  (congrFun (Plant.pathOpen_setChan_fan h r) q).trans (congrArg (fun cfg : FanCfg => x.pathOpen { p with cfg }) hc)

/-! ### The end of a stop (R92) -/

theorem Plant.startPath_eq (walk : Plant → Plant) : x.startPath walk a =
    if x.pathOpen f then walk ((x.fanBecomes a { f with state := .waitPermit } .command).joinQueue a)
    else x.fanBecomes a { f with state := .waitInterlock } .command := by
  unfold Plant.startPath
  rw [(x.fan?_eq_some a).mpr h, Plant.fanEnter_reportFan_of_sound h _ _ rfl, Plant.fanEnter_reportFan_of_sound h _ _ rfl]
  rfl

theorem Plant.completeStop_eq : x.completeStop Plant.walk a =
    if f.target = .off then x.fanBecomes a f.halted .stopped
    else if x.pathOpen f then
      (((x.fanBecomes a f.halted .stopped).fanBecomes a { f.halted with state := .waitPermit } .command).joinQueue a).walk
    else (x.fanBecomes a f.halted .stopped).fanBecomes a { f.halted with state := .waitInterlock } .command := by
  have stopped : (x.fanBecomes a f.halted .stopped).chans.look a = .fan f.halted := Table.look_put_same ..
  have path : (x.fanBecomes a f.halted .stopped).pathOpen f.halted = x.pathOpen f := Plant.fanBecomes_pathOpen h _ _ rfl
  have entered : (x.fanEnter a .stopped fun f => { f with runDownTimer := none, stopCause := none }).reportFan a .stopped
      .stopped = x.fanBecomes a f.halted .stopped := Plant.fanEnter_reportFan_of_sound h _ _ rfl
  unfold Plant.completeStop
  rw [(x.fan?_eq_some a).mpr h]
  dsimp only
  rw [entered, Plant.startPath_eq stopped, path]

/-! ### Proof arrives or is lost (R90 to R92) -/

theorem Plant.proofArrives_of_present (hp : x.proofPresent a = true) : x.proofArrives a = x := by
  simp only [Plant.proofArrives, h, hp, if_true]

theorem Plant.proofArrives_of_awaited (hp : x.proofPresent a = false) (hs : f.state = .starting ∨ f.state = .runFault) :
    x.proofArrives a =
      (x.setProof a true).fanBecomes a { f with state := .running, proofTimer := none, faultCause := none } .proof := by
  simp only [Plant.proofArrives, h, hp, hs, Bool.false_eq_true, if_false, if_true]
  exact Plant.fanEnter_reportFan_of_sound (x := x.setProof a true) h _ _ rfl

theorem Plant.proofArrives_of_other (hp : x.proofPresent a = false) (hs : ¬ (f.state = .starting ∨ f.state = .runFault)) :
    x.proofArrives a = x.setProof a true := by
  simp only [Plant.proofArrives, h, hp, hs, Bool.false_eq_true, if_false]

theorem Plant.proofLost_of_absent (hp : x.proofPresent a = false) : x.proofLost a = x := by
  simp only [Plant.proofLost, h, hp, Bool.not_false, if_true]

theorem Plant.proofLost_of_running (hp : x.proofPresent a = true) (hs : f.state = .running) : x.proofLost a =
    (x.setProof a false).fanFails a { f with state := .runFault, faultCause := some .proofLost } .proofLost := by
  simp only [Plant.proofLost, h, hp, hs, Bool.not_true, Bool.false_eq_true, if_false]
  exact Plant.fanEnter_reportFan_of_fault (x := x.setProof a false) h _ _ rfl (by rw [hs]; rfl)

theorem Plant.proofLost_of_stopping (hp : x.proofPresent a = true) (hs : f.state = .stopping ∨ f.state = .stopFault) :
    x.proofLost a = (x.setProof a false).completeStop Plant.walk a := by
  obtain hs | hs := hs <;> simp only [Plant.proofLost, h, hp, hs, Bool.not_true, Bool.false_eq_true, if_false]

theorem Plant.proofLost_of_other (hp : x.proofPresent a = true) (hr : f.state ≠ .running)
    (hs : ¬ (f.state = .stopping ∨ f.state = .stopFault)) : x.proofLost a = x.setProof a false := by
  obtain ⟨hn, hf⟩ := not_or.mp hs
  unfold Plant.proofLost
  rw [h]
  dsimp only
  rw [hp, if_neg (by decide)]
  split
  case h_1 e => exact absurd e hr
  case h_2 e => exact absurd e hn
  case h_3 e => exact absurd e hf
  case h_4 => rfl

/-! ### Timers (R84, R90, R92) -/

/-- As the Timebase goes on the speed reference takes its staged duty where a period of 2 ms has begun (R84). -/
theorem Plant.reach_look_fan (t : Nat) : (x.reach t).chans.look a =
    .fan { f with duty := if x.now / 2 < max x.now t / 2 then f.present else f.duty } := by
  rw [Plant.reach_chans, Plant.chansAt, dutyPeriod]
  split
  · rw [Table.look_map, h]
    rfl
  · exact h

theorem Plant.proofExpiry_of_starting {t : Nat} (hs : f.state = .starting) (ht : f.proofTimer = some t) : x.proofExpiry a =
    (x.reach t).fanFails a { f with
      duty := if x.now / 2 < max x.now t / 2 then f.present else f.duty
      state := .runFault, proofTimer := none, faultCause := some .noProof } .noProof := by
  simp only [Plant.proofExpiry, (x.fan?_eq_some a).mpr h, hs, ht]
  exact Plant.fanEnter_reportFan_of_fault (Plant.reach_look_fan h t) _ _ rfl (by rw [hs]; rfl)

theorem Plant.runDownExpiry_of_stopping {t : Nat} (hs : f.state = .stopping) (ht : f.runDownTimer = some t) :
    x.runDownExpiry a =
      (x.reach t).fanFails a { f with
        duty := if x.now / 2 < max x.now t / 2 then f.present else f.duty
        state := .stopFault, runDownTimer := none } .runDown := by
  simp only [Plant.runDownExpiry, (x.fan?_eq_some a).mpr h, hs, ht]
  exact Plant.fanEnter_reportFan_of_fault (Plant.reach_look_fan h t) _ _ rfl (by rw [hs]; rfl)

end

/-! ### The slew update (R94) -/

theorem slewStep_of_le {rate present applied : Nat} (h : present ≤ applied) :
    slewStep rate present applied = min applied (present + rate / 10) := if_pos h

theorem slewStep_of_ge {rate present applied : Nat} (h : applied ≤ present) :
    slewStep rate present applied = max applied (present - rate / 10) := by
  unfold slewStep
  dsimp only
  split <;> omega

theorem Channel.slew_of_running {f : Fan} (hs : f.state = .running) :
    (Channel.fan f).slew = .fan { f with present := slewStep f.cfg.slewRate f.present f.applied } := if_pos hs

theorem Channel.slew_of_other {f : Fan} (hs : f.state ≠ .running) : (Channel.fan f).slew = .fan f := if_neg hs

/-- Settles O41: the fan's equation for each event and state. -/
theorem aFanFollowsItsProofAndItsTimers : Obligations.AFanFollowsItsProofAndItsTimers := by
  intro s a f hr h present becomes fails stops starts halted later
  have input {i : Instr} {g k : Plant → Plant} (same : exec i s = .next (s.onInput g k)) {e : Plant → Plant}
      (eq : g s.plant = e s.plant) : exec i s = .next (s.onPlant e) :=
    same.trans (congrArg _ ((s.onInput_of_running hr g k).trans (s.onPlant_congr eq)))
  have expires {i : Instr} {g : Plant → Plant} (same : exec i s = .next (s.whenRunning fun s => s.onPlant g)) {e : Plant → Plant}
      (eq : g s.plant = e s.plant) : exec i s = .next (s.onPlant e) :=
    same.trans (congrArg _ ((s.whenRunning_of_running _ hr).trans (s.onPlant_congr eq)))
  have lost : (s.plant.setProof a false).chans.look a = .fan f := h
  have stopping (hp : present = true) (hs : stops) : s.plant.proofLost a = _ :=
    (Plant.proofLost_of_stopping h hp hs).trans (Plant.completeStop_eq lost)
  refine ⟨fun hp => input rfl (Plant.proofArrives_of_present h hp),
    fun hp hs => input rfl (Plant.proofArrives_of_awaited h hp hs),
    fun hp hs => input rfl (Plant.proofArrives_of_other h hp hs),
    fun hp => input rfl (Plant.proofLost_of_absent h hp),
    fun hp hs => input rfl (Plant.proofLost_of_running h hp hs),
    fun hp hs ht => input rfl ((stopping hp hs).trans (if_pos ht)),
    fun hp hs ht path => input rfl ((stopping hp hs).trans ((if_neg ht).trans (if_neg (Bool.eq_false_iff.mp path)))),
    fun hp hs ht path => input rfl ((stopping hp hs).trans ((if_neg ht).trans (if_pos path))),
    fun hp hn hs => input rfl (Plant.proofLost_of_other h hp hn hs),
    fun t r hs ht hl => expires rfl ?_, fun t r hs ht hl => expires rfl ?_,
    s.plant.chans.map Channel.slew, expires rfl rfl, fun hs le => ?_, fun hs ge => ?_, fun hs => ?_, fun b d hd => ?_⟩
  · subst hl
    exact Plant.proofExpiry_of_starting h hs ht
  · subst hl
    exact Plant.runDownExpiry_of_stopping h hs ht
  · rw [Table.look_map, h, Channel.slew_of_running hs, slewStep_of_le le]
  · rw [Table.look_map, h, Channel.slew_of_running hs, slewStep_of_ge ge]
  · rw [Table.look_map, h, Channel.slew_of_other hs]
  · rw [Table.look_map, hd]
    rfl

end Sys2Proof.Machine
end

section
/-!
SUPPORT. The figures of a group as one more scaled fan is energized, and what an evaluation that looks for no grant leaves of the
fans (R103, R106 to R109).
-/

namespace Sys2Proof.Machine

/-! ### Sums over the channels -/

theorem sum_map_filter {α : Type} (p : α → Bool) (w : α → Nat) (l : List α) :
    ((l.filter p).map w).sum = (l.map fun b => if p b then w b else 0).sum := by
  induction l with
  | nil => rfl
  | cons b l ih => cases h : p b <;> simp [h, ih]

/-- A weight changed at one channel changes the sum over all of them by as much. -/
theorem sum_allActs_of_change {v w : ActId → Nat} (a : ActId) (h : ∀ b, b ≠ a → w b = v b) (ha : v a = 0) :
    (allActs.map w).sum = (allActs.map v).sum + w a := by
  unfold allActs
  rw [← Fin.sum_univ_def, ← Fin.sum_univ_def, ← Finset.add_sum_erase _ w (Finset.mem_univ a),
    ← Finset.add_sum_erase _ v (Finset.mem_univ a), Finset.sum_congr rfl fun b hb => h b (Finset.ne_of_mem_erase hb), ha,
    Nat.zero_add, Nat.add_comm]

/-! ### Figures -/

/-- The figures go by the channels and the groups' configuration. -/
theorem Plant.figures_congr {x y : Plant} (hc : y.chans = x.chans) (hg : y.groups = x.groups) (g : GroupId) :
    y.figures g = x.figures g := by
  cases x
  cases y
  cases hc
  cases hg
  rfl

theorem Plant.checked_iff (x : Plant) (g : GroupId) : x.checked g = true ↔ (x.groups.look g).velocity ≠ 0 := by
  simp [Plant.checked, GroupCfg.checked]

section
variable {x : Plant} {a : ActId} {f r : Fan} {g : GroupId}

theorem Plant.inSet_of_fan (h : x.chans.look a = .fan f) (g : GroupId) (m : Bool) :
    x.inSet g m a = (f.cfg.group == some g && f.energized && ((f.cls == .manual) == m)) := by
  unfold Plant.inSet
  rw [(x.fan?_eq_some a).mpr h]

theorem Plant.fan?_setChan_other {b : ActId} (c : Channel) (hb : b ≠ a) : (x.setChan a c).fan? b = x.fan? b := by
  unfold Plant.fan?
  rw [Plant.setChan_chans, Table.look_put_other _ _ _ _ hb]

theorem Plant.damper?_setChan_fan (h : x.chans.look a = .fan f) (r : Fan) (b : ActId) :
    (x.setChan a (.fan r)).damper? b = x.damper? b := by
  unfold Plant.damper?
  by_cases e : b = a
  · rw [e, h, Plant.setChan_chans, Table.look_put_same]
  · rw [Plant.setChan_chans, Table.look_put_other _ _ _ _ e]

/-- A scaled fan that becomes energized adds its minimum flow to its group's, and takes nothing of the capacity (R103, R107). -/
theorem Plant.figures_of_energized (h : x.chans.look a = .fan f) (off : f.energized = false) (hr : r.energized = true)
    (hc : r.cfg = f.cfg) (hg : f.cfg.group = some g) (scaled : r.cls ≠ .manual) (checked : x.checked g = true) :
    ((x.setChan a (.fan r)).figures g).available = (x.figures g).available
      ∧ ((x.setChan a (.fan r)).figures g).minFlow = (x.figures g).minFlow + f.cfg.rated * f.cfg.minSpeed := by
  have look : (x.setChan a (.fan r)).chans.look a = .fan r := Table.look_put_same ..
  have out (m : Bool) : x.inSet g m a = false := by simp [Plant.inSet_of_fan h, off]
  have inScaled : (x.setChan a (.fan r)).inSet g false a = true := by
    rw [Plant.inSet_of_fan look, hr, hc, hg]
    simp [scaled]
  have outManual : (x.setChan a (.fan r)).inSet g true a = false := by
    rw [Plant.inSet_of_fan look]
    simp [scaled]
  have inSet (m : Bool) {b : ActId} (hb : b ≠ a) : (x.setChan a (.fan r)).inSet g m b = x.inSet g m b := by
    unfold Plant.inSet
    rw [Plant.fan?_setChan_other _ hb]
  have area : (x.setChan a (.fan r)).openArea g = x.openArea g := by
    funext b
    rw [Plant.openArea, Plant.openArea, Plant.damper?_setChan_fan h]
  have manualFlow : (((x.setChan a (.fan r)).manualSet g).map (x.setChan a (.fan r)).demandFlow).sum
      = ((x.manualSet g).map x.demandFlow).sum := by
    unfold Plant.manualSet
    rw [sum_map_filter, sum_map_filter]
    refine congrArg List.sum (List.map_congr_left fun b _ => ?_)
    by_cases e : b = a
    · rw [e, out, outManual]
      rfl
    · rw [inSet true e, Plant.demandFlow, Plant.demandFlow, Plant.fan?_setChan_other _ e]
  have minFlow : (((x.setChan a (.fan r)).scaledSet g).map (x.setChan a (.fan r)).leastFlow).sum
      = ((x.scaledSet g).map x.leastFlow).sum + f.cfg.rated * f.cfg.minSpeed := by
    unfold Plant.scaledSet
    rw [sum_map_filter, sum_map_filter]
    refine (sum_allActs_of_change a (fun b hb => ?_) (by rw [out]; rfl)).trans (congrArg _ ?_)
    · rw [inSet false hb, Plant.leastFlow, Plant.leastFlow, Plant.fan?_setChan_other _ hb]
    · rw [inScaled, if_pos rfl, Plant.leastFlow, (Plant.fan?_eq_some _ a).mpr look, ← hc]
  have checked' : (x.setChan a (.fan r)).checked g = true := checked
  unfold Plant.figures
  simp only [checked, checked', if_true, manualFlow, minFlow, area, Plant.setChan_groups, and_self]

end

/-! ### What an evaluation leaves of the fans -/

/-- From `x` to `y` every fan is as it was but for its applied speed, and the start queue as it was. -/
structure Plant.Reallots (x y : Plant) : Prop where
  fan : ∀ b f, x.chans.look b = .fan f → ∃ v, y.chans.look b = .fan { f with applied := v }
  queue : y.queue = x.queue

/-- From `x` to `y` no fan but `a` has been energized, and `a` has joined no queue and is as it was but for its applied speed; a MANUAL
one keeps that too, and stays outside the scaled sets. -/
structure Plant.Spares (a : ActId) (x y : Plant) : Prop where
  own : ∀ f, x.chans.look a = .fan f → ∃ v, y.chans.look a = .fan { f with applied := v } ∧ (f.cls = .manual → v = f.applied)
  on : ∀ b r, b ≠ a → y.chans.look b = .fan r → r.energized = true → ∃ f, x.chans.look b = .fan f ∧ f.energized = true
  queue : x.Unqueued a → y.Unqueued a
  stagger : y.stagger = x.stagger
  scaled : ∀ f, x.chans.look a = .fan f → f.cls = .manual → ∀ g, a ∉ (x.figs.look g).scaled → a ∉ (y.figs.look g).scaled

section
variable {a : ActId} {x y z : Plant}

theorem Plant.Reallots.of_same (hc : y.chans = x.chans := by rfl) (hq : y.queue = x.queue := by rfl) : x.Reallots y :=
  ⟨fun _ f h => ⟨f.applied, by rw [hc, h]⟩, hq⟩

theorem Plant.Reallots.trans (h : x.Reallots y) (i : y.Reallots z) : x.Reallots z where
  fan b f hf := by
    obtain ⟨v, hv⟩ := h.fan b f hf
    obtain ⟨w, hw⟩ := i.fan b _ hv
    exact ⟨w, hw⟩
  queue := i.queue.trans h.queue

theorem Plant.Spares.of_same (hc : y.chans = x.chans := by rfl) (hq : y.queue = x.queue := by rfl)
    (hs : y.stagger = x.stagger := by rfl) (hf : y.figs = x.figs := by rfl) : x.Spares a y :=
  ⟨fun f h => ⟨f.applied, by rw [hc, h], fun _ => rfl⟩, fun _ r _ h on => ⟨r, hc ▸ h, on⟩,
    fun h e he => h e (hq ▸ he), hs, fun _ _ _ g => by rw [hf]; exact id⟩

theorem Plant.Spares.trans (h : x.Spares a y) (i : y.Spares a z) : x.Spares a z where
  own f hf := by
    obtain ⟨v, hv, same⟩ := h.own f hf
    obtain ⟨w, hw, same'⟩ := i.own _ hv
    exact ⟨w, hw, fun m => (same' m).trans (same m)⟩
  on b r hb hr on := by
    obtain ⟨f, hf, on⟩ := i.on b r hb hr on
    exact h.on b f hb hf on
  queue hq := i.queue (h.queue hq)
  stagger := i.stagger.trans h.stagger
  scaled f hf manual g hg := by
    obtain ⟨v, hv, -⟩ := h.own f hf
    exact i.scaled _ hv manual g (h.scaled f hf manual g hg)

/-- No MANUAL fan is in a scaled set (R103). -/
theorem Plant.refresh_unscaled {f : Fan} (h : x.chans.look a = .fan f) (manual : f.cls = .manual) (g : GroupId) :
    a ∉ ((x.refresh g).figs.look g).scaled := by
  have out : x.inSet g false a = false := by simp [Plant.inSet_of_fan h, manual]
  have scaled : ((x.refresh g).figs.look g).scaled = x.scaledSet g := by
    unfold Plant.refresh Plant.figures
    dsimp only
    rw [Table.look_put_same]
    split <;> rfl
  rw [scaled]
  exact fun k => absurd ((List.mem_filter.mp k).2.symm.trans out) (by decide)

theorem Plant.refresh_spares (x : Plant) (g : GroupId) : x.Spares a (x.refresh g) := by
  refine ⟨fun f h => ⟨f.applied, h, fun _ => rfl⟩, fun _ r _ h on => ⟨r, h, on⟩, id, rfl, fun f h manual k hk => ?_⟩
  by_cases e : k = g
  · rw [e]
    exact Plant.refresh_unscaled h manual g
  · unfold Plant.refresh
    dsimp only
    rw [Table.look_put_other _ _ _ _ e]
    exact hk

/-! ### Speeds handed out (R109, R111) -/

/-- A speed given to a fan that is not MANUAL. -/
theorem Plant.modFan_applied {b : ActId} {f : Fan} (h : x.chans.look b = .fan f) (scaled : f.cls ≠ .manual) (v : Nat) :
    x.Reallots (x.modFan b fun f => { f with applied := v }) ∧ x.Spares a (x.modFan b fun f => { f with applied := v }) := by
  rw [Plant.modFan_of_fan h]
  have look (c : ActId) : (x.setChan b (.fan { f with applied := v })).chans.look c =
      if c = b then .fan { f with applied := v } else x.chans.look c := Table.look_put ..
  have given (c : ActId) (r : Fan) (hr : x.chans.look c = .fan r) :
      ∃ w, (x.setChan b (.fan { f with applied := v })).chans.look c = .fan { r with applied := w }
        ∧ (r.cls = .manual → w = r.applied) := by
    rw [look]
    split
    case isTrue e =>
      obtain rfl := Channel.fan.inj (h.symm.trans (e ▸ hr))
      exact ⟨v, rfl, fun m => absurd m scaled⟩
    case isFalse => exact ⟨r.applied, hr, fun _ => rfl⟩
  refine ⟨⟨fun c r hr => (given c r hr).imp fun _ k => k.1, rfl⟩, given a, fun c r _ hr on => ?_, id, rfl, fun _ _ _ _ => id⟩
  rw [look] at hr
  split at hr
  case isTrue e =>
    obtain rfl := Channel.fan.inj hr
    exact ⟨f, e ▸ h, on⟩
  case isFalse => exact ⟨r, hr, on⟩

theorem Plant.handSpeeds_reallots (x : Plant) (g : GroupId) : x.Reallots (x.handSpeeds g) ∧ x.Spares a (x.handSpeeds g) := by
  have scaled : ∀ p ∈ allocate (x.scaledFans g) (x.figs.look g).available,
      ∃ f, x.chans.look p.1 = .fan f ∧ f.cls ≠ .manual := fun p hp => by
    obtain ⟨k, hk, e⟩ := allocate_fan _ _ hp
    obtain ⟨b, hb, e'⟩ := List.mem_filterMap.mp hk
    obtain ⟨f, hf, rfl⟩ := Option.map_eq_some_iff.mp e'
    have look := (x.fan?_eq_some b).mp hf
    have inSet := (List.mem_filter.mp hb).2
    rw [Plant.inSet_of_fan look] at inSet
    exact ⟨f, e ▸ look, by simpa using (Bool.and_eq_true_iff.mp inSet).2⟩
  unfold Plant.handSpeeds
  revert scaled
  generalize allocate (x.scaledFans g) (x.figs.look g).available = l
  induction l generalizing x with
  | nil => exact fun _ => ⟨.of_same, .of_same⟩
  | cons p l ih =>
    intro scaled
    obtain ⟨f, look, cls⟩ := scaled p List.mem_cons_self
    obtain ⟨allots, spares⟩ := Plant.modFan_applied (a := a) look cls p.2
    obtain ⟨allots', spares'⟩ := ih (x.modFan p.1 fun f => { f with applied := p.2 }) fun q hq => by
      obtain ⟨r, hr, cls⟩ := scaled q (List.mem_cons_of_mem _ hq)
      obtain ⟨v, hv⟩ := allots.fan q.1 r hr
      exact ⟨_, hv, cls⟩
    exact ⟨allots.trans allots', spares.trans spares'⟩

/-! ### Shedding (R108) -/

theorem Plant.leaveHistory_spares (x : Plant) (b : ActId) : x.Spares a (x.leaveHistory b) := by
  unfold Plant.leaveHistory
  split
  · split
    · exact .of_same
    · exact .of_same
  · exact .of_same

section
variable (x) {b : ActId} (hb : b ≠ a)
include hb

theorem Plant.fanEnter_spares (st : FanState) (g : Fan → Fan) (hs : st.energized = false := by rfl) :
    x.Spares a (x.fanEnter b st g) := by
  cases h : x.chans.look b with
  | fan f =>
    obtain ⟨chans, queue, stagger, -⟩ := Plant.fanEnter_of_fan h st g
    have look {c : ActId} (hc : c ≠ b) : (x.fanEnter b st g).chans.look c = x.chans.look c := by
      rw [chans, Table.look_put_other _ _ _ _ hc]
    refine ⟨fun f h => ⟨f.applied, (look hb.symm).trans h, fun _ => rfl⟩, fun c r _ hr on => ?_, fun hq e he => hq e (queue ▸ he),
      stagger, fun _ _ _ g hg => by rw [Plant.fanEnter_figs]; exact hg⟩
    by_cases e : c = b
    · subst e
      rw [Fan.energized, x.fanEnter_state c hr, hs] at on
      cases on
    · exact ⟨r, (look e).symm.trans hr, on⟩
  | _ =>
    rw [x.fanEnter_of_other b (by simp [h])]
    exact .of_same

theorem Plant.joinQueue_spares : x.Spares a (x.joinQueue b) := by
  unfold Plant.joinQueue
  split
  · refine ⟨fun f h => ⟨f.applied, h, fun _ => rfl⟩, fun _ r _ h on => ⟨r, h, on⟩, fun hq e he => ?_, rfl, fun _ _ _ _ => id⟩
    obtain he | he := List.mem_append.mp he
    · exact hq e (List.mem_of_mem_filter he)
    · rw [List.mem_singleton.mp he]
      exact hb
  · exact .of_same

theorem Plant.startPath_spares : x.Spares a (x.startPath id b) := by
  unfold Plant.startPath
  split
  · split
    · exact ((x.fanEnter_spares hb .waitPermit id).trans .of_same).trans (Plant.joinQueue_spares _ hb)
    · exact (x.fanEnter_spares hb .waitInterlock id).trans .of_same
  · exact .of_same

theorem Plant.completeStop_spares : x.Spares a (x.completeStop id b) := by
  have stopped := x.fanEnter_spares hb .stopped fun f => { f with runDownTimer := none, stopCause := none }
  unfold Plant.completeStop
  split
  · dsimp only
    split
    · exact stopped.trans .of_same
    · exact (stopped.trans .of_same).trans (Plant.startPath_spares _ hb)
  · exact .of_same

/-- A shed fan takes no other with it (R96, R108). -/
theorem Plant.shed_spares (g : GroupId) : x.Spares a (x.shed id g b) := by
  have ordered := (((Plant.Spares.of_same (a := a) (x := x) (y := x.report .fanShed (some (.actuator b)) (some (.fan .stopping))
    (some (.capacity ((x.figs.look g).available / 1000))))).trans (Plant.fanEnter_spares _ hb .stopping fun f =>
      { f.stopRecord x.now (x.proofPresent b) .shed with requeue := true })).trans (Plant.leaveHistory_spares _ b)).trans
        (Plant.refresh_spares _ g)
  unfold Plant.shed
  dsimp only
  split
  · exact ordered
  · exact ordered.trans (Plant.completeStop_spares _ hb)

end

/-- Shedding spares a MANUAL fan. -/
theorem Plant.shedAll_spares {f : Fan} (h : x.chans.look a = .fan f) (manual : f.cls = .manual) {g : GroupId}
    (hg : a ∉ (x.figs.look g).scaled) : x.Spares a (x.shedAll id g) := by
  unfold Plant.shedAll
  generalize (x.history.look g).reverse = l
  induction l generalizing x f with
  | nil => exact .of_same
  | cons b l ih =>
    rw [List.foldl_cons]
    dsimp only
    split
    case isTrue k =>
      have shed := x.shed_spares (a := a) (b := b) (fun e => hg (e ▸ List.contains_iff_mem.mp k.2)) g
      obtain ⟨v, hv, -⟩ := shed.own f h
      exact shed.trans (ih hv manual (shed.scaled f h manual g hg))
    case isFalse => exact ih h manual hg

/-- Nothing is shed while the minimum flow fits (R108). -/
theorem Plant.shedAll_of_room (walk : Plant → Plant) {g : GroupId} (room : (x.figs.look g).minFlow ≤ (x.figs.look g).available) :
    x.shedAll walk g = x := by
  unfold Plant.shedAll
  generalize (x.history.look g).reverse = l
  induction l with
  | nil => rfl
  | cons b l ih =>
    rw [List.foldl_cons]
    dsimp only
    rw [if_neg fun k => absurd k.1 (Nat.not_lt.mpr room)]
    exact ih

/-! ### The evaluation inside a grant (R105) -/

theorem Plant.evaluate_of_unchecked (walk : Plant → Plant) {g : GroupId} (h : x.checked g = false) :
    x.evaluate walk g = x.refresh g := by
  have h : (x.refresh g).checked g = false := h
  simp only [Plant.evaluate, h, Bool.not_false, if_true]

theorem Plant.evaluate_of_checked {g : GroupId} (h : x.checked g = true) :
    x.evaluate id g = ((x.refresh g).shedAll id g).handSpeeds g := by
  have h : (x.refresh g).checked g = true := h
  simp only [Plant.evaluate, h, Bool.not_true, Bool.false_eq_true, if_false, id, ite_self]

/-- With room for the scaled fans an evaluation hands out speeds and does no more. -/
theorem Plant.evaluate_of_room {g : GroupId}
    (h : x.checked g = true → (x.figures g).minFlow ≤ (x.figures g).available) :
    x.Reallots (x.evaluate id g) ∧ x.Spares a (x.evaluate id g) := by
  cases checked : x.checked g with
  | false =>
    rw [Plant.evaluate_of_unchecked id checked]
    exact ⟨.of_same, x.refresh_spares g⟩
  | true =>
    have room : ((x.refresh g).figs.look g).minFlow ≤ ((x.refresh g).figs.look g).available := by
      simpa [Plant.refresh] using h checked
    obtain ⟨allots, spares⟩ := (x.refresh g).handSpeeds_reallots (a := a) g
    rw [Plant.evaluate_of_checked checked, Plant.shedAll_of_room id room]
    exact ⟨Plant.Reallots.trans .of_same allots, (x.refresh_spares g).trans spares⟩

/-- An evaluation spares a MANUAL fan. -/
theorem Plant.evaluate_spares {f : Fan} (h : x.chans.look a = .fan f) (manual : f.cls = .manual) (g : GroupId) :
    x.Spares a (x.evaluate id g) := by
  cases checked : x.checked g with
  | false =>
    rw [Plant.evaluate_of_unchecked id checked]
    exact x.refresh_spares g
  | true =>
    have shed := Plant.shedAll_spares (x := x.refresh g) h manual (Plant.refresh_unscaled h manual g)
    rw [Plant.evaluate_of_checked checked]
    exact ((x.refresh_spares g).trans shed).trans (Plant.handSpeeds_reallots _ g).2

end

end Sys2Proof.Machine
end

section
/-!
SUPPORT. The expiry of the stagger timer and the grant of a start permit (R89, R95, R99, R112): O43.
-/

namespace Sys2Proof.Machine

/-! ### Admission (R99, R104, R112) -/

/-- The fan is outside the check (R95, R104): MANUAL, of no group, or of an unchecked one. -/
def Plant.Free (x : Plant) (f : Fan) : Prop := f.cls = .manual ∨ ∀ g, f.cfg.group = some g → (x.groups.look g).velocity = 0

section
variable {x : Plant} {a : ActId} {f : Fan} (h : x.chans.look a = .fan f)
include h

theorem Plant.waitsForPermit_iff : x.waitsForPermit a = true ↔ f.state = .waitPermit ∧ x.pathOpen f = true := by
  unfold Plant.waitsForPermit
  rw [(x.fan?_eq_some a).mpr h, Bool.and_eq_true, beq_iff_eq]

theorem Plant.admissible_of_free (free : x.Free f) : x.admissible a = true := by
  unfold Plant.admissible
  rw [(x.fan?_eq_some a).mpr h]
  dsimp only
  obtain manual | unchecked := free
  · simp [manual]
  · cases hg : f.cfg.group with
    | none => simp
    | some g => simp [Plant.checked, GroupCfg.checked, unchecked g hg]

theorem Plant.admissible_iff {g : GroupId} (hg : f.cfg.group = some g) (checked : (x.groups.look g).velocity ≠ 0)
    (scaled : f.cls ≠ .manual) : x.admissible a = true ↔
      (x.figs.look g).minFlow + f.cfg.rated * f.cfg.minSpeed + 1000 * (x.groups.look g).margin ≤ (x.figs.look g).available := by
  unfold Plant.admissible Plant.roomFor
  rw [(x.fan?_eq_some a).mpr h]
  simp [hg, scaled, (x.checked_iff g).mpr checked]

end

/-! ### The permit taken (R89) -/

/-- The record of a fan that has taken the permit, its applied speed `v` (R89). -/
def Fan.permitted (f : Fan) (now v : Nat) : Fan :=
  { f with
    state := .starting, run := true, present := f.cfg.minSpeed, applied := v
    proofTimer := some (now + f.cfg.proofTime * 1000), requeue := false }

/-- In `y` fan `a`, whose record was `f`, has taken the permit, left the queue and set its own applied speed `v`, before its group
is evaluated. -/
structure Plant.Permits (x : Plant) (a : ActId) (f : Fan) (v : Nat) (y : Plant) : Prop where
  chans : y.chans = x.chans.put a (.fan (f.permitted x.now v))
  queue : y.queue = x.queue.filter fun q => q.fan != a
  stagger : y.stagger = some (x.now + x.staggerInterval * 1000)
  groups : y.groups = x.groups
  inputs : y.inputs = x.inputs

/-- The group of a fan, if it has one, evaluated as inside a grant, which looks for no further one (R99, R105). -/
def Plant.groupEvaluated (x : Plant) (group : Option GroupId) : Plant :=
  match group with
  | some g => x.evaluate id g
  | none => x

section
variable {x : Plant} {a : ActId} {f : Fan} (h : x.chans.look a = .fan f)
include h

/-- An energized fan sets its own applied speed where it is outside the check (R95). -/
theorem Plant.selfApplied_of_energized (on : f.energized = true) :
    ∃ v, x.selfApplied a = x.setChan a (.fan { f with applied := v }) ∧ (x.Free f → v = f.demanded) := by
  unfold Plant.selfApplied
  rw [(x.fan?_eq_some a).mpr h]
  dsimp only
  rw [on, Plant.modFan_of_fan h, Plant.modFan_of_fan h]
  have free : (f.cls == .manual || !f.cfg.group.any x.checked) = true ↔ x.Free f := by
    unfold Plant.Free
    cases hg : f.cfg.group <;> simp [Plant.checked, GroupCfg.checked]
  split
  case isTrue k => cases k
  case isFalse =>
    split
    case isTrue => exact ⟨_, rfl, fun _ => rfl⟩
    case isFalse k =>
      refine ⟨f.applied, ?_, fun n => absurd (free.mpr n) k⟩
      rw [← h]
      exact (congrArg (fun t => { x with chans := t }) (Table.put_look ..)).symm

/-- An energized fan's own applied speed, and then its group's evaluation (R95, R105). -/
theorem Plant.fanTouched_of_energized (on : f.energized = true) :
    ∃ v, x.fanTouched id a = (x.setChan a (.fan { f with applied := v })).groupEvaluated f.cfg.group
      ∧ (x.Free f → v = f.demanded) := by
  obtain ⟨v, applied, free⟩ := Plant.selfApplied_of_energized h on
  have found : (x.setChan a (.fan { f with applied := v })).fan? a = some { f with applied := v } :=
    (Plant.fan?_eq_some _ a).mpr (Table.look_put_same ..)
  refine ⟨v, ?_, free⟩
  unfold Plant.fanTouched
  dsimp only
  rw [applied, found, Option.bind_some]
  unfold Plant.groupEvaluated
  cases f.cfg.group <;> rfl

end

/-- The channel side as fan `a` has taken the permit and reported it, its run output's change not yet handed on (R89, R98, R99). -/
def Plant.permitTaken (x : Plant) (a : ActId) : Plant :=
  (((({ x with stagger := some (x.now + x.staggerInterval * 1000) } : Plant).leaveQueue a).fanEnter a .starting fun f =>
    { f with
      run := true, present := f.cfg.minSpeed, proofTimer := some (x.now + f.cfg.proofTime * 1000), requeue := false }).joinHistory
        a).reportFan a .starting .grant

/-- A STARTING fan whose proof is present already becomes RUNNING at once (R90). -/
def Plant.runsIfProven (x : Plant) (a : ActId) : Plant :=
  match x.fan? a with
  | some f => if x.proofPresent a && f.state == .starting then x.becomeRunning a else x
  | none => x

theorem Plant.grant_eq_permitTaken (x : Plant) (a : ActId) : x.grant a = ((x.permitTaken a).fanTouched id a).runsIfProven a := rfl

section
variable {x : Plant} {a : ActId} {f : Fan} (h : x.chans.look a = .fan f)
include h

/-- A fan enters a state and its group's grant history (R98). -/
theorem Plant.fanEnter_joinHistory_of_fan (st : FanState) (g : Fan → Fan) :
    ((x.fanEnter a st g).joinHistory a).chans = x.chans.put a (.fan { g f with state := st })
      ∧ ((x.fanEnter a st g).joinHistory a).queue = x.queue ∧ ((x.fanEnter a st g).joinHistory a).stagger = x.stagger
      ∧ ((x.fanEnter a st g).joinHistory a).groups = x.groups ∧ ((x.fanEnter a st g).joinHistory a).inputs = x.inputs := by
  have joined (y : Plant) : (y.joinHistory a).queue = y.queue ∧ (y.joinHistory a).stagger = y.stagger := by
    unfold Plant.joinHistory
    split
    · split <;> exact ⟨rfl, rfl⟩
    · exact ⟨rfl, rfl⟩
  have keeps := (x.fanEnter_keeps a st g).trans (Plant.joinHistory_keeps _ a)
  obtain ⟨chans, queue, stagger, -⟩ := Plant.fanEnter_of_fan h st g
  exact ⟨(Plant.joinHistory_chans _ a).trans chans, (joined _).1.trans queue, (joined _).2.trans stagger, keeps.groups,
    keeps.inputs⟩

theorem Plant.permitTaken_permits : x.Permits a f f.applied (x.permitTaken a) := by
  have left : (({ x with stagger := some (x.now + x.staggerInterval * 1000) } : Plant).leaveQueue a).chans.look a = .fan f := h
  obtain ⟨chans, queue, stagger, groups, inputs⟩ := Plant.fanEnter_joinHistory_of_fan left .starting fun f => { f with
    run := true, present := f.cfg.minSpeed, proofTimer := some (x.now + f.cfg.proofTime * 1000), requeue := false }
  exact ⟨chans, queue, stagger, groups, inputs⟩

/-- A grant takes the permit, evaluates the group, and goes by a proof that is present already (R89, R90, R105). -/
theorem Plant.grant_eq : ∃ v w, x.Permits a f v w ∧ (x.Free f → v = f.demanded)
    ∧ x.grant a = (w.groupEvaluated f.cfg.group).runsIfProven a := by
  have taken := Plant.permitTaken_permits h
  have look : (x.permitTaken a).chans.look a = .fan (f.permitted x.now f.applied) := by rw [taken.chans, Table.look_put_same]
  obtain ⟨v, touched, free⟩ := Plant.fanTouched_of_energized look rfl
  refine ⟨v, (x.permitTaken a).setChan a (.fan (f.permitted x.now v)),
    ⟨?_, taken.queue, taken.stagger, taken.groups, taken.inputs⟩, fun k => free ?_, ?_⟩
  · refine Table.ext_look _ _ fun b => ?_
    rw [Plant.setChan_chans, taken.chans]
    by_cases e : b = a
    · rw [e, Table.look_put_same, Table.look_put_same]
    · rw [Table.look_put_other _ _ _ _ e, Table.look_put_other _ _ _ _ e, Table.look_put_other _ _ _ _ e]
  · unfold Plant.Free
    rw [taken.groups]
    exact k
  · rw [x.grant_eq_permitTaken a, touched]
    rfl

end

/-! ### The group's evaluation inside the grant -/

section
variable {x w : Plant} {a : ActId} {f : Fan} {v : Nat} (h : x.chans.look a = .fan f) (hw : x.Permits a f v w)
include hw

theorem Plant.Permits.look : w.chans.look a = .fan (f.permitted x.now v) := by rw [hw.chans, Table.look_put_same]

theorem Plant.Permits.look_other {b : ActId} (hb : b ≠ a) : w.chans.look b = x.chans.look b := by
  rw [hw.chans, Table.look_put_other _ _ _ _ hb]

theorem Plant.Permits.unqueued : w.Unqueued a := fun q hq => by
  rw [hw.queue] at hq
  simpa using (List.mem_filter.mp hq).2

/-- A fan outside the check keeps the applied speed that it has set itself (R95). -/
theorem Plant.Permits.look_of_free (free : x.Free f) :
    (w.groupEvaluated f.cfg.group).chans.look a = .fan (f.permitted x.now v) := by
  cases hg : f.cfg.group with
  | none => exact hw.look
  | some g =>
    obtain manual | unchecked := free
    · obtain ⟨u, look, same⟩ := (Plant.evaluate_spares hw.look manual g).own _ hw.look
      rw [same manual] at look
      exact look
    · have out : w.checked g = false := by simp [Plant.checked, GroupCfg.checked, hw.groups, unchecked g hg]
      exact (congrArg (fun y : Plant => y.chans.look a) (Plant.evaluate_of_unchecked id out)).trans hw.look

include h

/-- There is room for a scaled fan whose minimum flow and margin the figures have room for (R112). -/
theorem Plant.Permits.room (off : f.energized = false) (admitted : x.admissible a = true) (scaled : f.cls ≠ .manual)
    {g : GroupId} (hg : f.cfg.group = some g) (fresh : x.figs.look g = x.figures g) (checked : w.checked g = true) :
    (w.figures g).minFlow ≤ (w.figures g).available := by
  have checked' : x.checked g = true := by
    unfold Plant.checked at checked ⊢
    rw [← hw.groups]
    exact checked
  have fits := (Plant.admissible_iff h hg ((x.checked_iff g).mp checked') scaled).mp admitted
  obtain ⟨available, minFlow⟩ := Plant.figures_of_energized (r := f.permitted x.now v) h off rfl rfl hg scaled checked'
  rw [Plant.figures_congr (x := x.setChan a (.fan (f.permitted x.now v))) hw.chans hw.groups, available, minFlow, ← fresh]
  omega

/-- The evaluation inside a grant spares the fan that it is for; where that is no MANUAL fan of a checked group it hands out speeds
and does no more (R108, R112). -/
theorem Plant.Permits.evaluated (off : f.energized = false) (admitted : x.admissible a = true)
    (fresh : ∀ g, f.cfg.group = some g → x.figs.look g = x.figures g) :
    w.Spares a (w.groupEvaluated f.cfg.group)
      ∧ (f.cls ≠ .manual ∨ (∀ g, f.cfg.group = some g → (x.groups.look g).velocity = 0) →
        w.Reallots (w.groupEvaluated f.cfg.group)) := by
  cases hg : f.cfg.group with
  | none => exact ⟨.of_same, fun _ => .of_same⟩
  | some g =>
    have room (roomy : f.cls ≠ .manual ∨ (x.groups.look g).velocity = 0) (checked : w.checked g = true) :
        (w.figures g).minFlow ≤ (w.figures g).available := by
      have velocity := (w.checked_iff g).mp checked
      rw [hw.groups] at velocity
      exact hw.room h off admitted (roomy.resolve_right velocity) hg (fresh g hg) checked
    refine ⟨?_, fun roomy => (Plant.evaluate_of_room (a := a) (room (roomy.imp id fun k => k g rfl))).1⟩
    by_cases manual : f.cls = .manual
    · exact Plant.evaluate_spares hw.look manual g
    · exact (Plant.evaluate_of_room (room (.inl manual))).2

end

/-! ### Proof present already (R90) -/

section
variable {x : Plant} {a : ActId} {f : Fan} (h : x.chans.look a = .fan f) (hs : f.state = .starting)
include h hs

theorem Plant.runsIfProven_eq : x.runsIfProven a = if x.proofPresent a then
    x.fanBecomes a { f with state := .running, proofTimer := none, faultCause := none } .proof else x := by
  have running : x.becomeRunning a = x.fanBecomes a { f with state := .running, proofTimer := none, faultCause := none } .proof :=
    Plant.fanEnter_reportFan_of_sound h _ _ rfl
  unfold Plant.runsIfProven
  rw [(x.fan?_eq_some a).mpr h]
  dsimp only
  rw [hs, running]
  simp

/-- Nothing but the fan's own channel goes by its proof. -/
theorem Plant.runsIfProven_frame : (x.runsIfProven a).queue = x.queue ∧ (x.runsIfProven a).stagger = x.stagger
    ∧ ∀ b, b ≠ a → (x.runsIfProven a).chans.look b = x.chans.look b := by
  rw [Plant.runsIfProven_eq h hs]
  split
  · exact ⟨rfl, rfl, fun b hb => Table.look_put_other _ _ _ _ hb⟩
  · exact ⟨rfl, rfl, fun _ _ => rfl⟩

end

/-! ### The walk (R99) -/

section
variable {x : Plant} (hs : x.stagger = none)
include hs

theorem Plant.walk_of_none (h : ∀ e ∈ x.queue, ¬ (x.waitsForPermit e.fan = true ∧ x.admissible e.fan = true)) : x.walk = x := by
  have none : x.queue.find? (fun e => x.waitsForPermit e.fan && x.admissible e.fan) = none :=
    List.find?_eq_none.mpr fun e he => by simpa using h e he
  unfold Plant.walk
  rw [hs, none]
  rfl

/-- The walk grants to the first entry that may have the permit. -/
theorem Plant.walk_of_first {front rest : List QueueEntry} {e : QueueEntry} (hq : x.queue = front ++ e :: rest)
    (h : ∀ b ∈ front, ¬ (x.waitsForPermit b.fan = true ∧ x.admissible b.fan = true))
    (he : x.waitsForPermit e.fan = true ∧ x.admissible e.fan = true) : x.walk = x.grant e.fan := by
  have found : x.queue.find? (fun e => x.waitsForPermit e.fan && x.admissible e.fan) = some e := by
    have passed : front.find? (fun e => x.waitsForPermit e.fan && x.admissible e.fan) = none :=
      List.find?_eq_none.mpr fun b hb => by simpa using h b hb
    rw [hq, List.find?_append, passed, List.find?_cons_of_pos (by simpa using he)]
    rfl
  unfold Plant.walk
  rw [hs, found]
  rfl

end

/-- Settles O43: the walk finds the first admissible entry, and the grant evaluates that fan's group with room for it. -/
theorem anExpiredStaggerGrantsTheFirstAdmissibleFan : Obligations.AnExpiredStaggerGrantsTheFirstAdmissibleFan := by
  intro s d hr hd x y may
  have expires : s.plant.staggerExpiry = y := by
    unfold Plant.staggerExpiry
    rw [hd]
  refine ⟨congrArg _ ((s.whenRunning_of_running _ hr).trans (s.onPlant_congr expires)), Plant.walk_of_none rfl, ?_,
    fun a f h => Plant.admissible_of_free h, fun a f g h hg checked scaled => Plant.admissible_iff h hg checked scaled⟩
  intro front e rest f hq passed he look fresh free roomy
  obtain ⟨waits, admitted⟩ := he
  obtain ⟨v, w, permits, demanded, granted⟩ := Plant.grant_eq look
  have off : f.energized = false := Fan.energized_of_state ((Plant.waitsForPermit_iff look).mp waits).1
  obtain ⟨spares, allots⟩ := permits.evaluated look off admitted fresh
  obtain ⟨u, own, -⟩ := spares.own _ permits.look
  obtain ⟨queue, stagger, other⟩ := Plant.runsIfProven_frame own rfl
  have proven : (w.groupEvaluated f.cfg.group).proofPresent e.fan = x.proofPresent e.fan := by
    have inputs : (w.groupEvaluated f.cfg.group).inputs = x.inputs := by
      cases f.cfg.group with
      | none => exact permits.inputs
      | some g => exact (Plant.evaluate_keeps Plant.id_keeps w g).inputs.trans permits.inputs
    unfold Plant.proofPresent
    rw [inputs]
  have walked : y = (w.groupEvaluated f.cfg.group).runsIfProven e.fan :=
    (Plant.walk_of_first rfl hq passed ⟨waits, admitted⟩).trans granted
  rw [walked]
  refine ⟨stagger.trans (spares.stagger.trans permits.stagger), ?_, fun k => ?_, fun k b g hb hg => ?_, fun b g hb hg on => ?_,
    u, fun k => ?_, fun absent => ?_, fun present => ?_⟩
  · rw [queue]
    exact spares.queue permits.unqueued
  · rw [queue, (allots k).queue, permits.queue]
  · obtain ⟨u, hu⟩ := (allots k).fan b g ((permits.look_other hb).trans hg)
    exact ⟨u, (other b hb).trans hu⟩
  · rw [other b hb] at hg
    obtain ⟨r, hr, on⟩ := spares.on b g hb hg on
    exact ⟨r, (permits.look_other hb).symm.trans hr, on⟩
  · rw [permits.look_of_free k] at own
    exact (congrArg Fan.applied (Channel.fan.inj own)).symm.trans (demanded k)
  · rw [Plant.runsIfProven_eq own rfl, proven, absent]
    exact own
  · rw [Plant.runsIfProven_eq own rfl, proven, present]
    exact Table.look_put_same ..

end Sys2Proof.Machine
end

section
/-!
SUPPORT. The allocation of R109 round by round: the fans still free after each round, the speed each fan ends with, and the bounds
that this speed keeps.
-/

namespace Sys2Proof.Machine

/-! ### The fans still free -/

/-- The fans of `l` fixed at their minimum speeds, those of `free` being free. -/
def fixedFans (s : ActId → ScaledFan) (l free : List ActId) : List ScaledFan := (l.filter fun a => decide (a ∉ free)).map s

/-- A' of a round: the capacity less the minimum flow of the fans fixed (R109). -/
def capacityLeft (s : ActId → ScaledFan) (l : List ActId) (A : Nat) (free : List ActId) : Nat :=
  A - minFlowOf (fixedFans s l free)

/-- D' of a round: the demanded flow of the fans not fixed (R109). -/
def demandLeft (s : ActId → ScaledFan) (l free : List ActId) : Nat :=
  demandFlowOf (l.map s) - demandFlowOf (fixedFans s l free)

/-- The figure a round computes for a fan, with the fans of `free` not fixed yet (R109). -/
def roundShare (s : ActId → ScaledFan) (l : List ActId) (A : Nat) (free : List ActId) (a : ActId) : Nat :=
  (s a).share (capacityLeft s l A free) (demandLeft s l free)

/-- The fans of `l` that are still free after `k` rounds (R109). -/
def freeAfter (s : ActId → ScaledFan) (l : List ActId) (A : Nat) : Nat → List ActId
  | 0 => l
  | k + 1 => (freeAfter s l A k).filter fun a => decide ((s a).m ≤ roundShare s l A (freeAfter s l A k) a)

/-- The speed that a fan ends with when no round after the `n`th fixes another (R109). -/
def roundSpeed (s : ActId → ScaledFan) (l : List ActId) (A n : Nat) (a : ActId) : Nat :=
  if a ∈ freeAfter s l A n then roundShare s l A (freeAfter s l A n) a else (s a).m

/-- A weight summed over a list is summed over the two parts that a test cuts it into. -/
theorem sum_filter_add_sum_filter_not {α : Type} (p : α → Bool) (w : α → Nat) (l : List α) :
    ((l.filter p).map w).sum + ((l.filter fun a => !p a).map w).sum = (l.map w).sum := by
  rw [← List.sum_append, ← List.map_append]
  exact ((List.filter_append_perm p l).map w).sum_eq

theorem minFlowOf_map (s : ActId → ScaledFan) (l : List ActId) :
    minFlowOf (l.map s) = (l.map fun a => (s a).q * (s a).m).sum := by simp [minFlowOf, Function.comp_def]

theorem demandFlowOf_map (s : ActId → ScaledFan) (l : List ActId) :
    demandFlowOf (l.map s) = (l.map fun a => (s a).q * (s a).d).sum := by simp [demandFlowOf, Function.comp_def]

section
variable (s : ActId → ScaledFan) (l : List ActId) (A : Nat)

/-- At first no fan is fixed. -/
theorem fixedFans_self : fixedFans s l l = [] := by
  unfold fixedFans
  rw [List.filter_eq_nil_iff.mpr fun a ha => by simpa using ha]
  rfl

/-- Whether a fan of `l` is free is a matter of the fan. -/
theorem freeAfter_eq_filter (k : Nat) :
    freeAfter s l A k = l.filter fun a => decide (a ∈ freeAfter s l A k) := by
  have cut : ∃ p : ActId → Bool, freeAfter s l A k = l.filter p := by
    induction k with
    | zero => exact ⟨fun _ => true, by simp [freeAfter]⟩
    | succ k ih =>
      obtain ⟨p, hp⟩ := ih
      exact ⟨_, (congrArg (List.filter _) hp).trans (List.filter_filter ..)⟩
  obtain ⟨p, hp⟩ := cut
  rw [hp]
  refine List.filter_congr fun a ha => ?_
  simp [ha]

theorem mem_of_mem_freeAfter_succ {k : Nat} {a : ActId} (h : a ∈ freeAfter s l A (k + 1)) : a ∈ freeAfter s l A k :=
  List.mem_of_mem_filter h

theorem mem_freeAfter_of_le {k n : Nat} (hk : k ≤ n) {a : ActId} (h : a ∈ freeAfter s l A n) : a ∈ freeAfter s l A k := by
  induction n, hk using Nat.le_induction with
  | base => exact h
  | succ n _ ih => exact ih (mem_of_mem_freeAfter_succ s l A h)

/-- The free and the fixed fans make up the whole set. -/
theorem sum_freeAfter_add (k : Nat) (w : ActId → Nat) :
    ((freeAfter s l A k).map w).sum + ((l.filter fun a => decide (a ∉ freeAfter s l A k)).map w).sum = (l.map w).sum := by
  conv_lhs => enter [1]; rw [freeAfter_eq_filter s l A k]
  simpa only [decide_not] using sum_filter_add_sum_filter_not (fun a => decide (a ∈ freeAfter s l A k)) w l

/-- The fans that the next round fixes. -/
def fixedNext (k : Nat) : List ActId :=
  (freeAfter s l A k).filter fun a => decide (roundShare s l A (freeAfter s l A k) a < (s a).m)

/-- The fans that a round fixes and those that it leaves free were free before it. -/
theorem sum_freeAfter_succ_add (k : Nat) (w : ActId → Nat) :
    ((freeAfter s l A (k + 1)).map w).sum + ((fixedNext s l A k).map w).sum = ((freeAfter s l A k).map w).sum := by
  refine Eq.trans ?_ (sum_filter_add_sum_filter_not
    (fun a => decide ((s a).m ≤ roundShare s l A (freeAfter s l A k) a)) w _)
  simp only [freeAfter, fixedNext, ← decide_not, Nat.not_le]

/-- D' is the demanded flow of the free fans. -/
theorem demandLeft_eq (k : Nat) : demandLeft s l (freeAfter s l A k) = demandFlowOf ((freeAfter s l A k).map s) := by
  have whole := sum_freeAfter_add s l A k fun a => (s a).q * (s a).d
  simp only [demandLeft, fixedFans, demandFlowOf_map]
  omega

theorem demandLeft_succ (k : Nat) : demandLeft s l (freeAfter s l A (k + 1))
    = demandLeft s l (freeAfter s l A k) - demandFlowOf ((fixedNext s l A k).map s) := by
  have parts := sum_freeAfter_succ_add s l A k fun a => (s a).q * (s a).d
  simp only [demandLeft_eq, demandFlowOf_map]
  omega

theorem capacityLeft_succ (k : Nat) : capacityLeft s l A (freeAfter s l A (k + 1))
    = capacityLeft s l A (freeAfter s l A k) - minFlowOf ((fixedNext s l A k).map s) := by
  have parts := sum_freeAfter_succ_add s l A k fun a => (s a).q * (s a).m
  have whole := sum_freeAfter_add s l A k fun a => (s a).q * (s a).m
  have whole' := sum_freeAfter_add s l A (k + 1) fun a => (s a).q * (s a).m
  simp only [capacityLeft, fixedFans, minFlowOf_map]
  omega

/-! ### The rounds end -/

/-- Where nothing is fixed any more, every speed handed out is that of the last round; each fan gets one. -/
theorem allocRounds_speeds (hs : ∀ a, (s a).fan = a) (n k : Nat) (hn : (freeAfter s l A k).length < n) :
    ∃ N, k ≤ N ∧ freeAfter s l A (N + 1) = freeAfter s l A N ∧
      let given := allocRounds n ((freeAfter s l A k).map s) (capacityLeft s l A (freeAfter s l A k))
        (demandLeft s l (freeAfter s l A k))
      (∀ p ∈ given, p.2 = roundSpeed s l A N p.1) ∧ ∀ a ∈ freeAfter s l A k, a ∈ given.map Prod.fst := by
  induction n generalizing k with
  | zero => exact absurd hn (Nat.not_lt_zero _)
  | succ n ih =>
    have fixed : ((freeAfter s l A k).map s).filter (fun f => decide (f.share (capacityLeft s l A (freeAfter s l A k))
        (demandLeft s l (freeAfter s l A k)) < f.m)) = (fixedNext s l A k).map s := List.filter_map ..
    have free : ((freeAfter s l A k).map s).filter (fun f => !decide (f.share (capacityLeft s l A (freeAfter s l A k))
        (demandLeft s l (freeAfter s l A k)) < f.m)) = (freeAfter s l A (k + 1)).map s := by
      rw [List.filter_map, freeAfter]
      refine congrArg (List.map s) (List.filter_congr fun a _ => ?_)
      exact (decide_not ..).symm.trans (decide_eq_decide.mpr Nat.not_lt)
    unfold allocRounds
    dsimp only
    rw [fixed, free, ← capacityLeft_succ, ← demandLeft_succ]
    by_cases none : fixedNext s l A k = []
    · have last : freeAfter s l A (k + 1) = freeAfter s l A k := by
        refine List.filter_eq_self.mpr fun a ha => decide_eq_true (Nat.not_lt.mp fun short => ?_)
        exact List.ne_nil_of_mem (List.mem_filter.mpr ⟨ha, decide_eq_true short⟩) none
      refine ⟨k, Nat.le_refl k, last, ?_⟩
      rw [if_pos (by rw [none]; rfl)]
      refine ⟨fun p hp => ?_, ?_⟩
      · obtain ⟨f, hf, rfl⟩ := List.mem_map.mp hp
        obtain ⟨a, ha, rfl⟩ := List.mem_map.mp hf
        simp only [roundSpeed, roundShare, hs, ha, if_true]
      · simp [hs]
    · have shorter : (freeAfter s l A (k + 1)).length < (freeAfter s l A k).length := by
        obtain ⟨a, ha⟩ := List.exists_mem_of_ne_nil _ none
        obtain ⟨ha, short⟩ := List.mem_filter.mp ha
        refine List.length_filter_lt_length_iff_exists.mpr ⟨a, ha, ?_⟩
        simpa using short
      obtain ⟨N, le, last, speeds, fans⟩ := ih (k + 1) (by omega)
      refine ⟨N, by omega, last, ?_⟩
      rw [if_neg (by simpa using none)]
      refine ⟨fun p hp => ?_, fun a ha => ?_⟩
      · obtain hp | hp := List.mem_append.mp hp
        · obtain ⟨f, hf, rfl⟩ := List.mem_map.mp hp
          obtain ⟨a, ha, rfl⟩ := List.mem_map.mp hf
          have out : a ∉ freeAfter s l A N := fun k => by
            have kept := mem_freeAfter_of_le s l A le k
            have share := of_decide_eq_true (List.mem_filter.mp kept).2
            exact absurd (of_decide_eq_true (List.mem_filter.mp ha).2) (Nat.not_lt.mpr share)
          simp only [roundSpeed, hs, out, if_false]
        · exact speeds p hp
      · rw [List.map_append]
        by_cases kept : a ∈ freeAfter s l A (k + 1)
        · exact List.mem_append_right _ (fans a kept)
        · refine List.mem_append_left _ ?_
          have fixedNow : a ∈ fixedNext s l A k := List.mem_filter.mpr ⟨ha, decide_eq_true (Nat.not_le.mp fun le =>
            kept (List.mem_filter.mpr ⟨ha, decide_eq_true le⟩))⟩
          simpa [hs] using fixedNow

/-- What the allocation hands out is one speed for each fan: the demanded one where that fits, and otherwise that of the last
round (R109). -/
theorem allocate_speeds (hs : ∀ a, (s a).fan = a) : ∃ v : ActId → Nat,
    (∀ p ∈ allocate (l.map s) A, p.2 = v p.1) ∧ (∀ a ∈ l, a ∈ (allocate (l.map s) A).map Prod.fst)
      ∧ (demandFlowOf (l.map s) ≤ A ∧ (v = fun a => (s a).d)
        ∨ A < demandFlowOf (l.map s) ∧ ∃ N, freeAfter s l A (N + 1) = freeAfter s l A N ∧ v = roundSpeed s l A N) := by
  unfold allocate
  split
  case isTrue fits =>
    refine ⟨fun a => (s a).d, fun p hp => ?_, fun a ha => ?_, .inl ⟨fits, rfl⟩⟩
    · obtain ⟨f, hf, rfl⟩ := List.mem_map.mp hp
      obtain ⟨a, ha, rfl⟩ := List.mem_map.mp hf
      simp only [hs]
    · simpa [hs] using ha
  case isFalse more =>
    have none : fixedFans s l (freeAfter s l A 0) = [] := fixedFans_self s l
    obtain ⟨N, -, last, speeds, fans⟩ := allocRounds_speeds s l A hs ((l.map s).length + 1) 0 (by simp [freeAfter])
    simp only [capacityLeft, demandLeft, none, minFlowOf, demandFlowOf, List.map_nil, List.sum_nil, Nat.sub_zero] at speeds fans
    exact ⟨_, speeds, fans, .inr ⟨Nat.lt_of_not_le more, N, last, rfl⟩⟩

/-! ### The bounds (R109, R110) -/

/-- Shares rounded down use up the capacity left at most. -/
theorem sum_share_le (free : List ActId) (a d : Nat) (hd : demandFlowOf (free.map s) ≤ d) :
    (free.map fun b => (s b).q * (s b).share a d).sum ≤ a := by
  obtain rfl | pos := Nat.eq_zero_or_pos d
  · simp [ScaledFan.share]
  have scaled : d * (free.map fun b => (s b).q * (s b).share a d).sum ≤ a * demandFlowOf (free.map s) := by
    rw [demandFlowOf_map, ← List.sum_map_mul_left, ← List.sum_map_mul_left]
    refine List.sum_le_sum fun b _ => ?_
    have share : (s b).share a d * d ≤ (s b).d * a := Nat.div_mul_le_self ..
    calc d * ((s b).q * (s b).share a d) = (s b).q * ((s b).share a d * d) := by ring
      _ ≤ (s b).q * ((s b).d * a) := Nat.mul_le_mul_left _ share
      _ = a * ((s b).q * (s b).d) := by ring
  refine Nat.le_of_mul_le_mul_left (scaled.trans ?_) pos
  rw [Nat.mul_comm d]
  exact Nat.mul_le_mul_left _ hd

/-- A fan whose share falls below its minimum speed takes more than its part: what a round leaves fits no better into the demand
left than before it. -/
theorem capacityLeft_le_demandLeft (more : A ≤ demandFlowOf (l.map s)) (k : Nat) :
    capacityLeft s l A (freeAfter s l A k) ≤ demandLeft s l (freeAfter s l A k) := by
  induction k with
  | zero => simpa [capacityLeft, demandLeft, fixedFans_self, freeAfter, minFlowOf, demandFlowOf] using more
  | succ k ih =>
    rw [capacityLeft_succ, demandLeft_succ]
    have part : demandFlowOf ((fixedNext s l A k).map s) ≤ demandLeft s l (freeAfter s l A k) := by
      have parts := sum_freeAfter_succ_add s l A k fun a => (s a).q * (s a).d
      simp only [demandLeft_eq, demandFlowOf_map]
      omega
    have short : capacityLeft s l A (freeAfter s l A k) * demandFlowOf ((fixedNext s l A k).map s)
        ≤ demandLeft s l (freeAfter s l A k) * minFlowOf ((fixedNext s l A k).map s) := by
      rw [demandFlowOf_map, minFlowOf_map, ← List.sum_map_mul_left, ← List.sum_map_mul_left]
      refine List.sum_le_sum fun a ha => ?_
      have below := of_decide_eq_true (List.mem_filter.mp ha).2
      unfold roundShare ScaledFan.share at below
      obtain zero | pos := Nat.eq_zero_or_pos (demandLeft s l (freeAfter s l A k))
      · rw [zero, Nat.le_zero.mp (ih.trans_eq zero)]
        simp
      · have below := (Nat.div_lt_iff_lt_mul pos).mp below
        nlinarith [Nat.mul_le_mul_left (s a).q below.le]
    generalize capacityLeft s l A (freeAfter s l A k) = a at *
    generalize demandLeft s l (freeAfter s l A k) = d at *
    generalize demandFlowOf ((fixedNext s l A k).map s) = w at *
    generalize minFlowOf ((fixedNext s l A k).map s) = m at *
    suffices a + w ≤ d + m by omega
    obtain rfl | pos := Nat.eq_zero_or_pos d
    · omega
    obtain ⟨e, rfl⟩ := Nat.exists_eq_add_of_le ih
    obtain ⟨u, hu⟩ := Nat.exists_eq_add_of_le part
    nlinarith

/-- The speeds handed out carry a flow within the capacity, where the minimum flow is (R110). -/
theorem roundSpeed_flow_le (room : minFlowOf (l.map s) ≤ A) (N : Nat) :
    (l.map fun a => (s a).q * roundSpeed s l A N a).sum ≤ A := by
  have free := sum_share_le s (freeAfter s l A N) (capacityLeft s l A (freeAfter s l A N))
    (demandLeft s l (freeAfter s l A N)) (demandLeft_eq s l A N).ge
  have whole := sum_freeAfter_add s l A N fun a => (s a).q * roundSpeed s l A N a
  have least := sum_freeAfter_add s l A N fun a => (s a).q * (s a).m
  have freeSpeeds : (freeAfter s l A N).map (fun a => (s a).q * roundSpeed s l A N a)
      = (freeAfter s l A N).map fun b => (s b).q * (s b).share (capacityLeft s l A (freeAfter s l A N))
        (demandLeft s l (freeAfter s l A N)) :=
    List.map_congr_left fun a ha => by rw [roundSpeed, if_pos ha, roundShare]
  have fixedSpeeds : (l.filter fun a => decide (a ∉ freeAfter s l A N)).map (fun a => (s a).q * roundSpeed s l A N a)
      = (l.filter fun a => decide (a ∉ freeAfter s l A N)).map fun a => (s a).q * (s a).m :=
    List.map_congr_left fun a ha => by rw [roundSpeed, if_neg (of_decide_eq_true (List.mem_filter.mp ha).2)]
  have left : capacityLeft s l A (freeAfter s l A N)
      = A - ((l.filter fun a => decide (a ∉ freeAfter s l A N)).map fun a => (s a).q * (s a).m).sum := by
    rw [capacityLeft, fixedFans, minFlowOf_map]
  rw [minFlowOf_map] at room
  rw [freeSpeeds, fixedSpeeds] at whole
  omega

/-- After the last round every fan's speed lies between its minimum and its demanded speed. -/
theorem roundSpeed_between (more : A ≤ demandFlowOf (l.map s)) {N : Nat} (last : freeAfter s l A (N + 1) = freeAfter s l A N)
    {a : ActId} (hm : (s a).m ≤ (s a).d) : (s a).m ≤ roundSpeed s l A N a ∧ roundSpeed s l A N a ≤ (s a).d := by
  unfold roundSpeed
  split
  case isFalse => exact ⟨Nat.le_refl _, hm⟩
  case isTrue free =>
    rw [← last] at free
    refine ⟨of_decide_eq_true (List.mem_filter.mp free).2, ?_⟩
    have fits := capacityLeft_le_demandLeft s l A more N
    exact Nat.div_le_of_le_mul (by rw [Nat.mul_comm]; exact Nat.mul_le_mul_right _ fits)

end

end Sys2Proof.Machine
end

section
/-!
SUPPORT. What a group goes by of the channels (R103, R106, R107, R110), the operations that leave a group as it is, and an
evaluation's shedding and allocation (R108, R109) as they act on the group.
-/

namespace Sys2Proof.Machine

/-! ### One channel -/

/-- The free area that a channel adds to group `g` (R106). -/
def Channel.area (g : GroupId) : Channel → Nat
  | .damper d => if d.cfg.role = .inlet ∧ d.cfg.group = some g ∧ d.state = .atOpen then d.cfg.freeArea else 0
  | _ => 0

/-- What an energized fan of group `g` draws: whether it is MANUAL, its minimum flow and its demanded flow (R103, R107). -/
def Channel.draw (g : GroupId) : Channel → Option (Bool × Nat × Nat)
  | .fan f =>
    if f.cfg.group = some g ∧ f.energized = true then
      some (f.cls == .manual, f.cfg.rated * f.cfg.minSpeed, f.cfg.rated * f.demanded)
    else none
  | _ => none

/-- The flow of an energized fan of group `g` at its applied speed, for a fan of the scaled set (R110). -/
def Channel.scaledFlow (g : GroupId) : Channel → Nat
  | .fan f => if f.cfg.group = some g ∧ f.energized = true ∧ f.cls ≠ .manual then f.cfg.rated * f.applied else 0
  | _ => 0

/-- Two channels are the same to group `g`. -/
structure Channel.AirAlike (g : GroupId) (c e : Channel) : Prop where
  area : e.area g = c.area g
  draw : e.draw g = c.draw g
  flow : e.scaledFlow g = c.scaledFlow g

section
variable {g : GroupId} {c d e : Channel} {f r : Fan}

theorem Channel.AirAlike.refl (g : GroupId) (c : Channel) : c.AirAlike g c := ⟨rfl, rfl, rfl⟩

theorem Channel.AirAlike.trans (h : c.AirAlike g d) (i : d.AirAlike g e) : c.AirAlike g e :=
  ⟨i.area.trans h.area, i.draw.trans h.draw, i.flow.trans h.flow⟩

/-- A fan that draws nothing before or after. -/
theorem Channel.AirAlike.of_apart (hf : f.cfg.group ≠ some g ∨ f.energized = false)
    (hr : r.cfg.group ≠ some g ∨ r.energized = false) : (Channel.fan f).AirAlike g (.fan r) := by
  have none {q : Fan} (hq : q.cfg.group ≠ some g ∨ q.energized = false) :
      (Channel.fan q).draw g = none ∧ (Channel.fan q).scaledFlow g = 0 := by
    unfold Channel.draw Channel.scaledFlow
    obtain hq | hq := hq
    · exact ⟨if_neg fun h => hq h.1, if_neg fun h => hq h.1⟩
    · exact ⟨if_neg fun h => absurd (hq.symm.trans h.2) (by decide), if_neg fun h => absurd (hq.symm.trans h.2.1) (by decide)⟩
  exact ⟨rfl, (none hr).1.trans (none hf).1.symm, (none hr).2.trans (none hf).2.symm⟩

/-- A fan that keeps what its group goes by. -/
theorem Channel.AirAlike.of_kept (hc : r.cfg = f.cfg) (he : r.energized = f.energized) (hm : r.cls = .manual ↔ f.cls = .manual)
    (ht : r.target = f.target) (ha : r.applied = f.applied) : (Channel.fan f).AirAlike g (.fan r) := by
  have manual : (r.cls == .manual) = (f.cls == .manual) := Bool.eq_iff_iff.mpr (by rw [beq_iff_eq, beq_iff_eq, hm])
  refine ⟨rfl, ?_, ?_⟩
  · simp only [Channel.draw, hc, he, manual, Fan.demanded, ht]
  · simp only [Channel.scaledFlow, hc, he, hm, ha, ne_eq]

theorem Fan.draw_isSome : ((Channel.fan f).draw g).isSome = true ↔ f.cfg.group = some g ∧ f.energized = true := by
  unfold Channel.draw
  split <;> simp_all

end

/-! ### The figures -/

section
variable {x y : Plant} {g : GroupId}

theorem Plant.openArea_eq (x : Plant) (g : GroupId) (a : ActId) : x.openArea g a = (x.chans.look a).area g := by
  unfold Plant.openArea Plant.damper? Channel.area
  cases x.chans.look a <;> rfl

theorem Plant.inSet_eq (x : Plant) (g : GroupId) (manual : Bool) (a : ActId) :
    x.inSet g manual a = ((x.chans.look a).draw g).any fun p => p.1 == manual := by
  unfold Plant.inSet Plant.fan? Channel.draw
  cases x.chans.look a with
  | fan f =>
    dsimp only
    split
    case isTrue h => simp [h]
    case isFalse h => cases he : f.energized <;> simp_all
  | _ => rfl

theorem Plant.mem_scaledSet {a : ActId} : a ∈ x.scaledSet g ↔
    ∃ f, x.chans.look a = .fan f ∧ f.cfg.group = some g ∧ f.energized = true ∧ f.cls ≠ .manual := by
  unfold Plant.scaledSet Plant.inSet Plant.fan?
  rw [List.mem_filter, and_iff_right (show a ∈ allActs from List.mem_finRange a)]
  cases h : x.chans.look a with
  | fan f => simp [and_assoc]
  | _ => simp

/-- A scaled set goes by what its group draws. -/
theorem Plant.scaledSet_congr (draw : ∀ a, (y.chans.look a).draw g = (x.chans.look a).draw g) :
    y.scaledSet g = x.scaledSet g :=
  List.filter_congr fun a _ => by rw [Plant.inSet_eq, Plant.inSet_eq, draw]

/-- A scaled set once one fan draws nothing any more. -/
theorem Plant.scaledSet_of_off {a : ActId} (other : ∀ b, b ≠ a → y.chans.look b = x.chans.look b)
    (off : (y.chans.look a).draw g = none) : y.scaledSet g = (x.scaledSet g).filter (· != a) := by
  unfold Plant.scaledSet
  rw [List.filter_filter]
  refine List.filter_congr fun b _ => ?_
  rw [Plant.inSet_eq, Plant.inSet_eq]
  by_cases e : b = a
  · rw [e, off]
    simp
  · rw [other b e]
    simp [e]

/-- The figures go by the areas and what the group draws, and by the group's configuration. -/
theorem Plant.figures_congr_air (groups : y.groups = x.groups) (area : ∀ a, (y.chans.look a).area g = (x.chans.look a).area g)
    (draw : ∀ a, (y.chans.look a).draw g = (x.chans.look a).draw g) : y.figures g = x.figures g := by
  have manual : y.manualSet g = x.manualSet g :=
    List.filter_congr fun a _ => by rw [Plant.inSet_eq, Plant.inSet_eq, draw]
  have areas : y.openArea g = x.openArea g := funext fun a => by rw [Plant.openArea_eq, Plant.openArea_eq, area]
  have checked : y.checked g = x.checked g := by rw [Plant.checked, Plant.checked, groups]
  have flows (p : Plant) {m : Bool} {a : ActId} (ha : a ∈ allActs.filter (p.inSet g m)) :
      (p.chans.look a).draw g = some (m, p.leastFlow a, p.demandFlow a) := by
    have inSet := (List.mem_filter.mp ha).2
    unfold Plant.inSet at inSet
    split at inSet
    case h_2 => cases inSet
    case h_1 f hf =>
      simp only [Bool.and_eq_true, beq_iff_eq] at inSet
      simp only [(p.fan?_eq_some a).mp hf, Channel.draw, inSet, and_self, if_true, Plant.leastFlow, Plant.demandFlow, hf]
  have manualFlow : (x.manualSet g).map y.demandFlow = (x.manualSet g).map x.demandFlow := List.map_congr_left fun a ha => by
    have own := (draw a).symm.trans (flows y (manual ▸ ha))
    exact (Prod.mk.inj (Prod.mk.inj (Option.some.inj (own.symm.trans (flows x ha)))).2).2
  have minFlow : (x.scaledSet g).map y.leastFlow = (x.scaledSet g).map x.leastFlow := List.map_congr_left fun a ha => by
    have own := (draw a).symm.trans (flows y (Plant.scaledSet_congr draw ▸ ha))
    exact (Prod.mk.inj (Prod.mk.inj (Option.some.inj (own.symm.trans (flows x ha)))).2).1
  unfold Plant.figures
  rw [Plant.scaledSet_congr draw, manual, areas, checked, groups]
  dsimp only
  rw [manualFlow, minFlow]

theorem Plant.figures_scaled (x : Plant) (g : GroupId) : (x.figures g).scaled = x.scaledSet g := by
  unfold Plant.figures
  dsimp only
  split <;> rfl

/-- A fan of the scaled set is one whose applied flow counts. -/
theorem Plant.appliedFlow_of_mem {a : ActId} (h : a ∈ x.scaledSet g) : x.appliedFlow a = (x.chans.look a).scaledFlow g := by
  obtain ⟨f, hf, member⟩ := Plant.mem_scaledSet.mp h
  rw [Plant.appliedFlow, (x.fan?_eq_some a).mpr hf, hf, Channel.scaledFlow, if_pos member]

end

/-! ### What leaves a group as it is -/

/-- The energized fans of group `g` stand in its grant history (R98). -/
def Plant.Granted (g : GroupId) (x : Plant) : Prop :=
  ∀ a, ((x.chans.look a).draw g).isSome = true → a ∈ x.history.look g

/-- From `x` to `y` nothing has changed that group `g` goes by, and no energized fan has left its history. -/
structure Plant.Leaves (g : GroupId) (x y : Plant) : Prop where
  groups : y.groups = x.groups
  alike : ∀ a, (x.chans.look a).AirAlike g (y.chans.look a)
  figs : y.figs.look g = x.figs.look g
  history : ∀ a ∈ x.history.look g, ((x.chans.look a).draw g).isSome = true → a ∈ y.history.look g

/-- The figures of group `g` are current, its energized fans stand in its history, and its minimum flow is within the available
capacity (R103, R98, R108). -/
structure Plant.RoomIn (g : GroupId) (x : Plant) : Prop where
  current : x.figs.look g = x.figures g
  granted : x.Granted g
  room : (x.figures g).minFlow ≤ (x.figures g).available

/-- Group `g` as an evaluation leaves it: balanced, with room for its minimum flow. -/
structure Plant.EvaluatedIn (g : GroupId) (x : Plant) : Prop extends Plant.RoomIn g x where
  within : x.checked g = true → ((x.scaledSet g).map x.appliedFlow).sum ≤ (x.figures g).available

section
variable {g : GroupId} {x y z : Plant}

theorem Plant.granted_iff : x.Granted g ↔
    ∀ a f, x.chans.look a = .fan f → f.cfg.group = some g → f.energized = true → a ∈ x.history.look g := by
  refine forall_congr' fun a => ⟨fun h f hf hg he => h (by rw [hf]; exact Fan.draw_isSome.mpr ⟨hg, he⟩), fun h ha => ?_⟩
  cases hf : x.chans.look a with
  | fan f =>
    obtain ⟨hg, he⟩ := Fan.draw_isSome.mp (hf ▸ ha)
    exact h f hf hg he
  | _ =>
    rw [hf] at ha
    cases ha

theorem Plant.Leaves.refl (g : GroupId) (x : Plant) : x.Leaves g x :=
  ⟨rfl, fun _ => .refl g _, rfl, fun _ h _ => h⟩

theorem Plant.Leaves.trans (h : Plant.Leaves g x y) (i : Plant.Leaves g y z) : Plant.Leaves g x z :=
  ⟨i.groups.trans h.groups, fun a => (h.alike a).trans (i.alike a), i.figs.trans h.figs,
    fun a ha on => i.history a (h.history a ha on) (by rw [(h.alike a).draw]; exact on)⟩

/-- Channels, group configuration, figures and histories as they stood. -/
theorem Plant.Leaves.of_same (hc : y.chans = x.chans := by rfl) (hg : y.groups = x.groups := by rfl)
    (hf : y.figs = x.figs := by rfl) (hh : y.history = x.history := by rfl) : Plant.Leaves g x y :=
  ⟨hg, fun _ => by rw [hc]; exact .refl g _, by rw [hf], fun _ h _ => by rw [hh]; exact h⟩

/-- One channel changed for one that is the same to the group. -/
theorem Plant.Leaves.of_put {a : ActId} {c : Channel} (hc : y.chans = x.chans.put a c) (alike : (x.chans.look a).AirAlike g c)
    (hg : y.groups = x.groups := by rfl) (hf : y.figs = x.figs := by rfl) (hh : y.history = x.history := by rfl) :
    Plant.Leaves g x y := by
  refine ⟨hg, fun b => ?_, by rw [hf], fun _ h _ => by rw [hh]; exact h⟩
  rw [hc, Table.look_put]
  split
  case isTrue e => exact e ▸ alike
  case isFalse => exact .refl g _

theorem Plant.Leaves.figures (h : Plant.Leaves g x y) : y.figures g = x.figures g :=
  Plant.figures_congr_air h.groups (fun a => (h.alike a).area) fun a => (h.alike a).draw

theorem Plant.Leaves.scaledSet (h : Plant.Leaves g x y) : y.scaledSet g = x.scaledSet g :=
  Plant.scaledSet_congr fun a => (h.alike a).draw

theorem Plant.Leaves.granted (h : Plant.Leaves g x y) (hx : x.Granted g) : y.Granted g := fun a ha => by
  rw [(h.alike a).draw] at ha
  exact h.history a (hx a ha) ha

theorem Plant.Leaves.within (h : Plant.Leaves g x y) :
    ((y.scaledSet g).map y.appliedFlow).sum = ((x.scaledSet g).map x.appliedFlow).sum := by
  rw [h.scaledSet]
  refine congrArg List.sum (List.map_congr_left fun a ha => ?_)
  rw [Plant.appliedFlow_of_mem ha, Plant.appliedFlow_of_mem (h.scaledSet ▸ ha), (h.alike a).flow]

theorem Plant.Leaves.checked (h : Plant.Leaves g x y) : y.checked g = x.checked g := by
  rw [Plant.checked, Plant.checked, h.groups]

theorem Plant.Leaves.balancedIn (h : Plant.Leaves g x y) (hx : x.BalancedIn g) : y.BalancedIn g where
  current := by rw [h.figs, hx.current, h.figures]
  granted := Plant.granted_iff.mp (h.granted (Plant.granted_iff.mpr hx.granted))
  within checked := by
    rw [h.within, h.figs]
    exact hx.within (h.checked ▸ checked)

theorem Plant.Leaves.roomIn (h : Plant.Leaves g x y) (hx : x.RoomIn g) : y.RoomIn g :=
  ⟨by rw [h.figs, hx.current, h.figures], h.granted hx.granted, by rw [h.figures]; exact hx.room⟩

theorem Plant.Leaves.evaluatedIn (h : Plant.Leaves g x y) (hx : x.EvaluatedIn g) : y.EvaluatedIn g :=
  ⟨h.roomIn hx.toRoomIn, fun checked => by rw [h.within, h.figures]; exact hx.within (h.checked ▸ checked)⟩

theorem Plant.EvaluatedIn.balancedIn (h : x.EvaluatedIn g) : x.BalancedIn g :=
  ⟨h.current, Plant.granted_iff.mp h.granted, fun checked => by rw [h.current]; exact h.within checked⟩

end

end Sys2Proof.Machine
end

section
/-!
SUPPORT. The speeds that an evaluation hands out, and the shed order on one fan, as group and channels see them (R108, R109, R110).
-/

namespace Sys2Proof.Machine

/-! ### Speeds handed out (R109, R111) -/

/-- The channel with its applied speed set, if it is a fan. -/
def Channel.atSpeed (v : Nat) : Channel → Channel
  | .fan f => .fan { f with applied := v }
  | c => c

/-- The channel side with the applied speeds `v` given to the fans of `l`. -/
def Plant.atSpeeds (x : Plant) (l : List ActId) (v : ActId → Nat) : Plant :=
  { x with chans := Table.of fun a => if a ∈ l then (x.chans.look a).atSpeed (v a) else x.chans.look a }

theorem Plant.atSpeeds_look (x : Plant) (l : List ActId) (v : ActId → Nat) (a : ActId) :
    (x.atSpeeds l v).chans.look a = if a ∈ l then (x.chans.look a).atSpeed (v a) else x.chans.look a := Table.look_of _ a

section
variable (x : Plant) (l : List ActId) (v : ActId → Nat)

theorem Plant.atSpeeds_groups : (x.atSpeeds l v).groups = x.groups := by simp only [Plant.atSpeeds]
theorem Plant.atSpeeds_figs : (x.atSpeeds l v).figs = x.figs := by simp only [Plant.atSpeeds]
theorem Plant.atSpeeds_history : (x.atSpeeds l v).history = x.history := by simp only [Plant.atSpeeds]

end

theorem Plant.atSpeeds_leaves_of_apart (x : Plant) (l : List ActId) (v : ActId → Nat) {k : GroupId}
    (h : ∀ a ∈ l, ∃ f, x.chans.look a = .fan f ∧ f.cfg.group ≠ some k) : Plant.Leaves k x (x.atSpeeds l v) := by
  refine ⟨x.atSpeeds_groups l v, fun a => ?_, by rw [Plant.atSpeeds_figs], fun _ h _ => by rw [Plant.atSpeeds_history]; exact h⟩
  rw [Plant.atSpeeds_look]
  split
  case isFalse => exact .refl k _
  case isTrue ha =>
    obtain ⟨f, hf, apart⟩ := h a ha
    rw [hf]
    exact .of_apart (r := { f with applied := v a }) (.inl apart) (.inl apart)

/-- Fan `a` with the figures that the allocation goes by; all 0 for another kind of channel. -/
def Plant.scaledFan (x : Plant) (a : ActId) : ScaledFan :=
  match x.fan? a with
  | some f => ⟨a, f.cfg.rated, f.cfg.minSpeed, f.demanded⟩
  | none => ⟨a, 0, 0, 0⟩

theorem Plant.scaledFan_fan (x : Plant) (a : ActId) : (x.scaledFan a).fan = a := by
  unfold Plant.scaledFan
  split <;> rfl

theorem Plant.scaledFan_of_fan {x : Plant} {a : ActId} {f : Fan} (h : x.chans.look a = .fan f) :
    x.scaledFan a = ⟨a, f.cfg.rated, f.cfg.minSpeed, f.demanded⟩ := by
  unfold Plant.scaledFan
  rw [(x.fan?_eq_some a).mpr h]

theorem Plant.scaledFans_eq (x : Plant) (g : GroupId) : x.scaledFans g = (x.scaledSet g).map x.scaledFan := by
  unfold Plant.scaledFans
  rw [← List.filterMap_eq_map]
  refine List.filterMap_congr fun a ha => ?_
  obtain ⟨f, hf, -⟩ := Plant.mem_scaledSet.mp ha
  rw [(x.fan?_eq_some a).mpr hf, Function.comp_apply, Plant.scaledFan_of_fan hf]
  rfl

/-- Speeds handed to the fans of a list change their applied speeds and nothing else. -/
theorem Plant.foldl_modFan_applied (v : ActId → Nat) (l : List (ActId × Nat)) (hl : ∀ p ∈ l, p.2 = v p.1) (x : Plant) :
    l.foldl (fun y p => y.modFan p.1 fun f => { f with applied := p.2 }) x = x.atSpeeds (l.map Prod.fst) v := by
  suffices given : ∃ chans, l.foldl (fun y p => y.modFan p.1 fun f => { f with applied := p.2 }) x = { x with chans }
      ∧ ∀ a, chans.look a = if a ∈ l.map Prod.fst then (x.chans.look a).atSpeed (v a) else x.chans.look a by
    obtain ⟨chans, e, look⟩ := given
    have table : chans = Table.of fun a => if a ∈ l.map Prod.fst then (x.chans.look a).atSpeed (v a) else x.chans.look a :=
      Table.ext_look _ _ fun a => by rw [look, Table.look_of]
    rw [e, table, Plant.atSpeeds]
  induction l generalizing x with
  | nil => exact ⟨x.chans, rfl, fun a => by rw [List.map_nil, if_neg List.not_mem_nil]⟩
  | cons p l ih =>
    have one : x.modFan p.1 (fun f => { f with applied := p.2 })
        = { x with chans := x.chans.put p.1 ((x.chans.look p.1).atSpeed p.2) } := by
      unfold Plant.modFan Channel.atSpeed
      cases h : x.chans.look p.1 with
      | fan f => rfl
      | _ => simp [← h]
    have twice (c : Channel) (n : Nat) : (c.atSpeed n).atSpeed n = c.atSpeed n := by cases c <;> rfl
    obtain ⟨chans, e, look⟩ := ih (fun q hq => hl q (List.mem_cons_of_mem _ hq))
      { x with chans := x.chans.put p.1 ((x.chans.look p.1).atSpeed p.2) }
    refine ⟨chans, by rw [List.foldl_cons, one, e], fun a => ?_⟩
    rw [look, List.map_cons, hl p List.mem_cons_self, Table.look_put]
    by_cases e : a = p.1
    · subst e
      simp [twice]
    · simp only [e, if_false, List.mem_cons, false_or]

/-- The speeds `v` are those that the allocation gives the fans of `l` for the capacity `A` (R109). -/
def Allots (s : ActId → ScaledFan) (l : List ActId) (A : Nat) (v : ActId → Nat) : Prop :=
  demandFlowOf (l.map s) ≤ A ∧ (v = fun a => (s a).d)
    ∨ A < demandFlowOf (l.map s) ∧ ∃ N, freeAfter s l A (N + 1) = freeAfter s l A N ∧ v = roundSpeed s l A N

/-- The flow of the speeds allotted is within the capacity, where the minimum flow is (R110). -/
theorem Allots.flow_le {s : ActId → ScaledFan} {l : List ActId} {A : Nat} {v : ActId → Nat} (h : Allots s l A v)
    (room : minFlowOf (l.map s) ≤ A) : (l.map fun a => (s a).q * v a).sum ≤ A := by
  obtain ⟨fits, rfl⟩ | ⟨-, N, -, rfl⟩ := h
  · rw [demandFlowOf_map] at fits
    exact fits
  · exact roundSpeed_flow_le s l A room N

/-- A speed allotted lies between the minimum and the demanded speed. -/
theorem Allots.between {s : ActId → ScaledFan} {l : List ActId} {A : Nat} {v : ActId → Nat} (h : Allots s l A v) {a : ActId}
    (hm : (s a).m ≤ (s a).d) : (s a).m ≤ v a ∧ v a ≤ (s a).d := by
  obtain ⟨-, rfl⟩ | ⟨more, N, last, rfl⟩ := h
  · exact ⟨hm, Nat.le_refl _⟩
  · exact roundSpeed_between s l A more.le last hm

/-- The allocation changes the applied speeds of the scaled set and nothing else; `s` gives each of its fans the figures that the
allocation goes by. -/
theorem Plant.handSpeeds_eq (x : Plant) (g : GroupId) (s : ActId → ScaledFan) (hs : ∀ a, (s a).fan = a)
    (same : ∀ a ∈ x.scaledSet g, x.scaledFan a = s a) : ∃ v, Allots s (x.scaledSet g) (x.figs.look g).available v
      ∧ x.handSpeeds g = x.atSpeeds (x.scaledSet g) v := by
  have fans : x.scaledFans g = (x.scaledSet g).map s := x.scaledFans_eq g |>.trans (List.map_congr_left same)
  obtain ⟨v, speeds, every, allots⟩ := allocate_speeds s (x.scaledSet g) (x.figs.look g).available hs
  have ids (a : ActId) : a ∈ (allocate (x.scaledFans g) (x.figs.look g).available).map Prod.fst ↔ a ∈ x.scaledSet g := by
    rw [fans]
    refine ⟨fun ha => ?_, every a⟩
    obtain ⟨p, hp, rfl⟩ := List.mem_map.mp ha
    obtain ⟨f, hf, e⟩ := allocate_fan _ _ hp
    obtain ⟨b, hb, rfl⟩ := List.mem_map.mp hf
    rw [← e, hs]
    exact hb
  refine ⟨v, allots, ?_⟩
  rw [← fans] at speeds
  unfold Plant.handSpeeds
  rw [Plant.foldl_modFan_applied v _ speeds]
  simp only [Plant.atSpeeds, ids]

section
variable {x : Plant} {g : GroupId}

/-- The minimum flow of a checked group is that of the fans of its scaled set (R103). -/
theorem Plant.minFlowOf_scaledSet (checked : x.checked g = true) :
    minFlowOf ((x.scaledSet g).map x.scaledFan) = (x.figures g).minFlow := by
  rw [minFlowOf_map]
  unfold Plant.figures
  dsimp only
  rw [if_pos checked]
  refine congrArg List.sum (List.map_congr_left fun a ha => ?_)
  obtain ⟨f, hf, -⟩ := Plant.mem_scaledSet.mp ha
  rw [Plant.scaledFan_of_fan hf, Plant.leastFlow, (x.fan?_eq_some a).mpr hf]

theorem Plant.figures_of_unchecked (h : x.checked g = false) : (x.figures g).minFlow = 0 ∧ (x.figures g).available = 0 := by
  unfold Plant.figures
  simp [h]

/-- The speeds handed out matter to their own group alone. -/
theorem Plant.handSpeeds_leaves (x : Plant) {g k : GroupId} (hk : k ≠ g) : Plant.Leaves k x (x.handSpeeds g) := by
  obtain ⟨v, -, e⟩ := x.handSpeeds_eq g x.scaledFan x.scaledFan_fan fun _ _ => rfl
  rw [e]
  refine x.atSpeeds_leaves_of_apart _ v fun a ha => ?_
  obtain ⟨f, hf, group, -⟩ := Plant.mem_scaledSet.mp ha
  exact ⟨f, hf, fun e => hk (Option.some.inj (e.symm.trans group))⟩

/-- An allocation leaves the group's areas and draws as they were. -/
theorem Plant.handSpeeds_air (x : Plant) (g k : GroupId) (a : ActId) :
    ((x.handSpeeds g).chans.look a).area k = (x.chans.look a).area k
      ∧ ((x.handSpeeds g).chans.look a).draw k = (x.chans.look a).draw k := by
  have same (v : Nat) (c : Channel) : (c.atSpeed v).area k = c.area k ∧ (c.atSpeed v).draw k = c.draw k := by
    cases c <;> exact ⟨rfl, rfl⟩
  obtain ⟨v, -, e⟩ := x.handSpeeds_eq g x.scaledFan x.scaledFan_fan fun _ _ => rfl
  rw [e, Plant.atSpeeds_look]
  split
  · exact same _ _
  · exact ⟨rfl, rfl⟩

theorem Plant.handSpeeds_scaledSet (x : Plant) (g k : GroupId) : (x.handSpeeds g).scaledSet k = x.scaledSet k :=
  Plant.scaledSet_congr fun a => (x.handSpeeds_air g k a).2

theorem Plant.handSpeeds_figures (x : Plant) (g k : GroupId) : (x.handSpeeds g).figures k = x.figures k :=
  Plant.figures_congr_air (x.handSpeeds_keeps g).groups (fun a => (x.handSpeeds_air g k a).1) fun a => (x.handSpeeds_air g k a).2

theorem Plant.handSpeeds_figs (x : Plant) (g : GroupId) : (x.handSpeeds g).figs = x.figs := by
  obtain ⟨v, -, e⟩ := x.handSpeeds_eq g x.scaledFan x.scaledFan_fan fun _ _ => rfl
  rw [e, Plant.atSpeeds_figs]

theorem Plant.handSpeeds_history (x : Plant) (g : GroupId) : (x.handSpeeds g).history = x.history := by
  obtain ⟨v, -, e⟩ := x.handSpeeds_eq g x.scaledFan x.scaledFan_fan fun _ _ => rfl
  rw [e, Plant.atSpeeds_history]

/-- With room for the minimum flow an allocation keeps the applied flow within the available capacity (R109, R110). -/
theorem Plant.handSpeeds_within (current : x.figs.look g = x.figures g) (checked : x.checked g = true)
    (room : (x.figures g).minFlow ≤ (x.figures g).available) :
    (((x.handSpeeds g).scaledSet g).map (x.handSpeeds g).appliedFlow).sum ≤ (x.figures g).available := by
  obtain ⟨v, allots, e⟩ := x.handSpeeds_eq g x.scaledFan x.scaledFan_fan fun _ _ => rfl
  have flows : (x.scaledSet g).map (x.handSpeeds g).appliedFlow = (x.scaledSet g).map fun a => (x.scaledFan a).q * v a := by
    refine List.map_congr_left fun a ha => ?_
    obtain ⟨f, hf, -⟩ := Plant.mem_scaledSet.mp ha
    have look : (x.handSpeeds g).chans.look a = .fan { f with applied := v a } := by
      rw [e, Plant.atSpeeds_look, if_pos ha, hf]
      rfl
    rw [Plant.appliedFlow, (Plant.fan?_eq_some _ a).mpr look, Plant.scaledFan_of_fan hf]
  rw [x.handSpeeds_scaledSet, flows, ← current]
  refine allots.flow_le ?_
  rw [Plant.minFlowOf_scaledSet checked, current]
  exact room

theorem Plant.RoomIn.handSpeeds (h : x.RoomIn g) : (x.handSpeeds g).EvaluatedIn g := by
  have figures := x.handSpeeds_figures g g
  refine ⟨⟨by rw [figures, x.handSpeeds_figs, h.current], fun a ha => ?_, by rw [figures]; exact h.room⟩, fun checked => ?_⟩
  · rw [(x.handSpeeds_air g g a).2] at ha
    rw [x.handSpeeds_history]
    exact h.granted a ha
  · rw [Plant.checked, (x.handSpeeds_keeps g).groups] at checked
    rw [figures]
    exact Plant.handSpeeds_within h.current checked h.room

end

/-! ### One fan's record -/

section
variable {g : GroupId} {x : Plant} {a : ActId} {f : Fan}

theorem Plant.fanEnter_history (x : Plant) (a : ActId) (st : FanState) (h : Fan → Fan) :
    (x.fanEnter a st h).history = x.history := by
  unfold Plant.fanEnter
  split
  case h_1 f hf =>
    dsimp only
    rw [Plant.modFan_of_fan ((x.fan?_eq_some a).mp hf)]
    split <;> rfl
  case h_2 => rfl

/-- A fan enters a state with a record that is the same to the group. -/
theorem Plant.fanEnter_leaves (h : x.chans.look a = .fan f) (st : FanState) (e : Fan → Fan)
    (alike : (Channel.fan f).AirAlike g (.fan { e f with state := st })) : Plant.Leaves g x (x.fanEnter a st e) :=
  .of_put (Plant.fanEnter_of_fan h st e).1 (h ▸ alike) (x.fanEnter_keeps a st e).groups (x.fanEnter_figs a st e)
    (x.fanEnter_history a st e)

/-- A fan that draws nothing leaves its grant history. -/
theorem Plant.leaveHistory_leaves (h : x.chans.look a = .fan f) (apart : f.cfg.group ≠ some g ∨ f.energized = false) :
    Plant.Leaves g x (x.leaveHistory a) := by
  refine ⟨(x.leaveHistory_keeps a).groups, fun b => ?_, ?_, fun b hb on => ?_⟩
  · rw [x.leaveHistory_chans a]
    exact .refl g _
  · unfold Plant.leaveHistory
    split
    · split <;> rfl
    · rfl
  · have other : b ≠ a := by
      rintro rfl
      rw [h, Fan.draw_isSome] at on
      exact apart.elim (absurd on.1) fun off => absurd (off.symm.trans on.2) (by decide)
    unfold Plant.leaveHistory
    rw [(x.fan?_eq_some a).mpr h]
    dsimp only
    split
    case h_2 => exact hb
    case h_1 k _ =>
      dsimp only
      rw [Table.look_put]
      split
      case isFalse => exact hb
      case isTrue e => exact List.mem_filter.mpr ⟨e ▸ hb, by simpa using other⟩

/-- Figures taken afresh are another group's. -/
theorem Plant.refresh_leaves (x : Plant) {g k : GroupId} (hk : k ≠ g) : Plant.Leaves k x (x.refresh g) :=
  ⟨rfl, fun _ => .refl k _, Table.look_put_other _ _ _ _ hk, fun _ h _ => h⟩

theorem Plant.refresh_history (x : Plant) (g : GroupId) : (x.refresh g).history = x.history := rfl

theorem Plant.refresh_figures (x : Plant) (g k : GroupId) : (x.refresh g).figures k = x.figures k :=
  Plant.figures_congr rfl rfl k

theorem Plant.refresh_current (x : Plant) (g : GroupId) : (x.refresh g).figs.look g = (x.refresh g).figures g := by
  rw [x.refresh_figures]
  exact Table.look_put_same ..

end

/-! ### One shed order (R96, R108) -/

/-- The channel side with the shed order on fan `a` of group `g` given and its fan in STOPPING (R96). -/
def Plant.shedOrdered (x : Plant) (g : GroupId) (a : ActId) : Plant :=
  (x.report .fanShed (some (.actuator a)) (some (.fan .stopping)) (some (.capacity ((x.figs.look g).available / 1000)))).fanEnter
    a .stopping fun f => { f.stopRecord x.now (x.proofPresent a) .shed with requeue := true }

/-- The shed order carried out, before a stop that completes at once (R96). -/
def Plant.shedBegun (x : Plant) (g : GroupId) (a : ActId) : Plant := ((x.shedOrdered g a).leaveHistory a).refresh g

theorem Plant.shed_eq (walk : Plant → Plant) (g : GroupId) (x : Plant) (a : ActId) : x.shed walk g a =
    if x.proofPresent a then x.shedBegun g a else (x.shedBegun g a).completeStop walk a := rfl

/-- The record of a fan on a shed order (R96). -/
def Fan.shedRecord (now : Nat) (proof : Bool) (f : Fan) : Fan :=
  { f.stopRecord now proof .shed with requeue := true, state := .stopping }

section
variable {g : GroupId} {x : Plant} {a : ActId} {f : Fan} (h : x.chans.look a = .fan f)
include h

theorem Plant.shedOrdered_chans :
    (x.shedOrdered g a).chans = x.chans.put a (.fan (f.shedRecord x.now (x.proofPresent a))) :=
  (Plant.fanEnter_of_fan (x := x.report ..) h .stopping _).1

theorem Plant.shedOrdered_look : (x.shedOrdered g a).chans.look a = .fan (f.shedRecord x.now (x.proofPresent a)) := by
  rw [Plant.shedOrdered_chans h, Table.look_put_same]

omit h in
theorem Plant.shedOrdered_same : (x.shedOrdered g a).groups = x.groups ∧ (x.shedOrdered g a).figs = x.figs
    ∧ (x.shedOrdered g a).history = x.history :=
  ⟨(Plant.fanEnter_keeps (x.report ..) a .stopping _).groups, (x.report ..).fanEnter_figs a .stopping _,
    (x.report ..).fanEnter_history a .stopping _⟩

theorem Plant.shedBegun_chans : (x.shedBegun g a).chans = x.chans.put a (.fan (f.shedRecord x.now (x.proofPresent a))) := by
  unfold Plant.shedBegun
  rw [Plant.refresh_chans, Plant.leaveHistory_chans, Plant.shedOrdered_chans h]

theorem Plant.shedBegun_look : (x.shedBegun g a).chans.look a = .fan (f.shedRecord x.now (x.proofPresent a)) := by
  rw [Plant.shedBegun_chans h, Table.look_put_same]

/-- A shed order takes its fan out of the scaled set. -/
theorem Plant.shedBegun_scaledSet : (x.shedBegun g a).scaledSet g = (x.scaledSet g).filter (· != a) := by
  refine Plant.scaledSet_of_off (fun b hb => ?_) ?_
  · rw [Plant.shedBegun_chans h, Table.look_put_other _ _ _ _ hb]
  · rw [Plant.shedBegun_look h]
    exact if_neg fun k => Bool.false_ne_true k.2

/-- A shed order leaves every other group as it is. -/
theorem Plant.shedBegun_leaves (hg : f.cfg.group = some g) {k : GroupId} (hk : k ≠ g) : Plant.Leaves k x (x.shedBegun g a) := by
  have apart : f.cfg.group ≠ some k := fun e => hk (Option.some.inj (e.symm.trans hg))
  obtain ⟨groups, figs, history⟩ := x.shedOrdered_same (g := g) (a := a)
  have ordered : Plant.Leaves k x (x.shedOrdered g a) :=
    .of_put (Plant.shedOrdered_chans h) (h ▸ .of_apart (.inl apart) (.inl apart)) groups figs history
  exact (ordered.trans (Plant.leaveHistory_leaves (Plant.shedOrdered_look h) (.inl apart))).trans (Plant.refresh_leaves _ hk)

omit h in
theorem Plant.shedBegun_current : (x.shedBegun g a).figs.look g = (x.shedBegun g a).figures g :=
  Plant.refresh_current _ g

end

/-! ### Shedding (R108) -/

/-- Fan `a` looked at by the shedding of group `g` (R108). -/
def Plant.shedStep (walk : Plant → Plant) (g : GroupId) (x : Plant) (a : ActId) : Plant :=
  if (x.figs.look g).available < (x.figs.look g).minFlow ∧ (x.figs.look g).scaled.contains a then x.shed walk g a else x

theorem Plant.shedAll_eq (walk : Plant → Plant) (g : GroupId) (x : Plant) :
    x.shedAll walk g = (x.history.look g).reverse.foldl (Plant.shedStep walk g) x := rfl

section
variable (walk : Plant → Plant) {g : GroupId} {x : Plant} (h : x.figs.look g = x.figures g) {a : ActId}
include h

theorem Plant.shedStep_of_due (ha : a ∈ x.scaledSet g) (short : (x.figures g).available < (x.figures g).minFlow) :
    x.shedStep walk g a = x.shed walk g a :=
  if_pos ⟨by rw [h]; exact short, by rw [h, Plant.figures_scaled]; exact List.contains_iff_mem.mpr ha⟩

theorem Plant.shedStep_of_still (ha : a ∉ x.scaledSet g ∨ (x.figures g).minFlow ≤ (x.figures g).available) :
    x.shedStep walk g a = x := by
  refine if_neg fun ⟨short, due⟩ => ha.elim (fun out => out ?_) fun room => ?_
  · rw [h, Plant.figures_scaled] at due
    exact List.contains_iff_mem.mp due
  · rw [h] at short
    exact absurd short (Nat.not_lt.mpr room)

end

end Sys2Proof.Machine
end

section
/-!
SUPPORT. The balance of the air through the work of the fans: each operation leaves a group as it is or evaluates it (R98, R103, R105,
R110).
-/

namespace Sys2Proof.Machine

/-- Group `g` is left as it is or evaluated. -/
def Plant.Tends (g : GroupId) (x y : Plant) : Prop := Plant.Leaves g x y ∨ y.EvaluatedIn g

/-- Every energized fan stands in its group's grant history (R98). -/
def Plant.Recorded (x : Plant) : Prop := ∀ g, x.Granted g

/-- With every energized fan in its group's grant history, each group is left as it is or evaluated. -/
def Plant.Balances (x y : Plant) : Prop := x.Recorded → ∀ g, Plant.Tends g x y

/-- So is each group but `group`, and no energized fan is missing in a history afterwards. -/
structure Plant.BalancesBut (group : Option GroupId) (x y : Plant) : Prop where
  others : x.Recorded → ∀ g, group ≠ some g → Plant.Tends g x y
  recorded : x.Recorded → y.Recorded

section
variable {g : GroupId} {group : Option GroupId} {x y z : Plant}

theorem Plant.Tends.granted (h : Plant.Tends g x y) (hx : x.Granted g) : y.Granted g :=
  h.elim (fun k => k.granted hx) fun k => k.granted

theorem Plant.Tends.trans (h : Plant.Tends g x y) (i : Plant.Tends g y z) : Plant.Tends g x z :=
  i.elim (fun k => h.imp (fun j => j.trans k) fun j => k.evaluatedIn j) .inr

theorem Plant.Tends.balancedIn (h : Plant.Tends g x y) (hx : x.BalancedIn g) : y.BalancedIn g :=
  h.elim (fun k => k.balancedIn hx) fun k => k.balancedIn

theorem Plant.Tends.evaluatedIn (h : Plant.Tends g x y) (hx : x.EvaluatedIn g) : y.EvaluatedIn g :=
  h.elim (fun k => k.evaluatedIn hx) id

theorem Plant.Balances.recorded (h : x.Balances y) (hx : x.Recorded) : y.Recorded := fun g => (h hx g).granted (hx g)

theorem Plant.Balances.refl (x : Plant) : x.Balances x := fun _ g => .inl (.refl g x)

theorem Plant.Balances.trans (h : x.Balances y) (i : y.Balances z) : x.Balances z := fun hx g =>
  (h hx g).trans (i (h.recorded hx) g)

theorem Plant.Balances.of_leaves (h : ∀ g, Plant.Leaves g x y) : x.Balances y := fun _ g => .inl (h g)

/-- Channels, group configuration, figures and histories as they stood. -/
theorem Plant.Balances.of_same (hc : y.chans = x.chans := by rfl) (hg : y.groups = x.groups := by rfl)
    (hf : y.figs = x.figs := by rfl) (hh : y.history = x.history := by rfl) : x.Balances y :=
  .of_leaves fun _ => .of_same hc hg hf hh

theorem Plant.Balances.foldl {α : Type} {h : Plant → α → Plant} (hh : ∀ x a, Plant.Balances x (h x a)) (l : List α)
    (x : Plant) : x.Balances (l.foldl h x) := by
  induction l generalizing x with
  | nil => exact .refl x
  | cons a l ih => exact (hh x a).trans (ih _)

theorem Plant.Balances.but (h : x.Balances y) : x.BalancesBut group y := ⟨fun hx g _ => h hx g, h.recorded⟩

theorem Plant.BalancesBut.refl (x : Plant) : x.BalancesBut group x := (Plant.Balances.refl x).but

theorem Plant.BalancesBut.balances (h : x.BalancesBut none y) : x.Balances y := fun hx g => h.others hx g (by simp)

theorem Plant.BalancesBut.trans (h : x.BalancesBut group y) (i : y.BalancesBut group z) : x.BalancesBut group z :=
  ⟨fun hx g hg => (h.others hx g hg).trans (i.others (h.recorded hx) g hg), fun hx => i.recorded (h.recorded hx)⟩

/-- One fan's record changed, which energizes no fan. -/
theorem Plant.BalancesBut.of_put {a : ActId} {f r : Fan} (h : x.chans.look a = .fan f) (hc : y.chans = x.chans.put a (.fan r))
    (he : r.energized = true → f.energized = true) (hr : r.cfg = f.cfg := by rfl) (hg : y.groups = x.groups := by rfl)
    (hf : y.figs = x.figs := by rfl) (hh : y.history = x.history := by rfl) : x.BalancesBut f.cfg.group y := by
  refine ⟨fun _ g apart => .inl ?_, fun hx g => ?_⟩
  · exact .of_put hc (h ▸ .of_apart (.inl apart) (.inl (hr ▸ apart))) hg hf hh
  · have hx := Plant.granted_iff.mp (hx g)
    rw [Plant.granted_iff]
    intro b q hq group on
    rw [hh]
    rw [hc, Table.look_put] at hq
    split at hq
    case isFalse => exact hx b q hq group on
    case isTrue e =>
      obtain rfl := Channel.fan.inj hq
      exact hx b f (e ▸ h) (hr ▸ group) (he on)

end

/-! ### One fan -/

section
variable {x : Plant} {a : ActId} {f : Fan} (h : x.chans.look a = .fan f)
include h

/-- A fan that is not energized goes on to a state that is not. -/
theorem Plant.fanEnter_balances_off (off : f.energized = false) (st : FanState) (e : Fan → Fan)
    (hs : st.energized = false := by rfl) : x.Balances (x.fanEnter a st e) :=
  .of_leaves fun _ => Plant.fanEnter_leaves h st e (.of_apart (.inr off) (.inr hs))

/-- An energized fan goes on to an energized state, with the same draw. -/
theorem Plant.fanEnter_balances_on (on : f.energized = true) (st : FanState) (e : Fan → Fan)
    (he : (e f).cfg = f.cfg ∧ (e f).cls = f.cls ∧ (e f).target = f.target ∧ (e f).applied = f.applied)
    (hs : st.energized = true := by rfl) : x.Balances (x.fanEnter a st e) := by
  obtain ⟨hc, hk, ht, ha⟩ := he
  refine .of_leaves fun _ => Plant.fanEnter_leaves h st e (.of_kept hc (on ▸ hs) ?_ ht ha)
  exact iff_of_eq (congrArg (· = .manual) hk)

/-- A fan that goes on to a state that is not energized matters to its own group alone. -/
theorem Plant.fanEnter_balancesBut (st : FanState) (e : Fan → Fan) (hs : st.energized = false := by rfl)
    (he : (e f).cfg = f.cfg := by rfl) : x.BalancesBut f.cfg.group (x.fanEnter a st e) :=
  .of_put h (Plant.fanEnter_of_fan h st e).1 (fun on => absurd (hs.symm.trans on) (by decide)) he
    (x.fanEnter_keeps a st e).groups (x.fanEnter_figs a st e) (x.fanEnter_history a st e)

/-- Nobody leaves a grant history as a fan joins that of its group. -/
theorem Plant.mem_joinHistory (g : GroupId) : (∀ b ∈ x.history.look g, b ∈ (x.joinHistory a).history.look g)
    ∧ (f.cfg.group = some g → a ∈ (x.joinHistory a).history.look g) := by
  unfold Plant.joinHistory
  rw [(Plant.fan?_eq_some _ a).mpr h]
  dsimp only
  cases f.cfg.group with
  | none => exact ⟨fun _ => id, fun k => by cases k⟩
  | some k =>
    dsimp only
    rw [Table.look_put]
    split
    case isFalse hk => exact ⟨fun _ => id, fun e => absurd (Option.some.inj e).symm hk⟩
    case isTrue hk =>
      rw [hk]
      refine ⟨fun b hb => ?_, fun _ => by simp⟩
      by_cases e : b = a <;> simp [e, hb]

/-- A fan that is energized joins its group's grant history with it (R98). -/
theorem Plant.fanEnter_joinHistory_balancesBut (st : FanState) (e : Fan → Fan) (he : (e f).cfg = f.cfg := by rfl) :
    x.BalancesBut f.cfg.group ((x.fanEnter a st e).joinHistory a) := by
  have entered := Plant.fanEnter_look h st e
  have chans := (Plant.joinHistory_chans (x.fanEnter a st e) a).trans (Plant.fanEnter_of_fan h st e).1
  have groups := ((x.fanEnter_keeps a st e).trans (Plant.joinHistory_keeps _ a)).groups
  have figs : ((x.fanEnter a st e).joinHistory a).figs = x.figs := by
    refine Eq.trans ?_ (x.fanEnter_figs a st e)
    unfold Plant.joinHistory
    split
    · split <;> rfl
    · rfl
  have history (g : GroupId) : (∀ b ∈ x.history.look g, b ∈ ((x.fanEnter a st e).joinHistory a).history.look g)
      ∧ (f.cfg.group = some g → a ∈ ((x.fanEnter a st e).joinHistory a).history.look g) := by
    rw [← x.fanEnter_history a st e, ← he]
    exact Plant.mem_joinHistory entered g
  refine ⟨fun _ g apart => .inl ⟨groups, fun b => ?_, by rw [figs], fun b hb _ => (history g).1 b hb⟩, fun hx g => ?_⟩
  · rw [chans, Table.look_put]
    split
    case isFalse => exact .refl g _
    case isTrue k => exact k ▸ h ▸ .of_apart (.inl apart) (.inl (he ▸ apart))
  · have hx := Plant.granted_iff.mp (hx g)
    rw [Plant.granted_iff]
    intro b q hq group on
    rw [chans, Table.look_put] at hq
    split at hq
    case isFalse => exact (history g).1 b (hx b q hq group on)
    case isTrue k =>
      obtain rfl := Channel.fan.inj hq
      exact k ▸ (history g).2 (he ▸ group)

end

/-! ### The start path and the end of a stop (R86, R92) -/

theorem Plant.joinQueue_balances (x : Plant) (a : ActId) : x.Balances (x.joinQueue a) := by
  unfold Plant.joinQueue
  split
  · exact .of_same
  · exact .refl x

section
variable {walk : Plant → Plant} (hw : ∀ y : Plant, y.Balances (walk y)) {x : Plant} {a : ActId} {f : Fan}
  (h : x.chans.look a = .fan f) (off : f.energized = false)
include hw h off

/-- A fan that has entered WAIT_PERMIT, whatever reports it, joins the queue (R86, R87). -/
theorem Plant.permitAwaited_balances (c : FanCause) :
    x.Balances (walk (((x.fanEnter a .waitPermit id).reportFan a .waitPermit c).joinQueue a)) :=
  (((Plant.fanEnter_balances_off h off .waitPermit id).trans .of_same).trans (Plant.joinQueue_balances _ a)).trans (hw _)

theorem Plant.startPath_balances : x.Balances (x.startPath walk a) := by
  unfold Plant.startPath
  rw [(x.fan?_eq_some a).mpr h]
  dsimp only
  split
  · exact Plant.permitAwaited_balances hw h off .command
  · exact (Plant.fanEnter_balances_off h off .waitInterlock id).trans .of_same

theorem Plant.completeStop_balances : x.Balances (x.completeStop walk a) := by
  have stopped : x.Balances ((x.fanEnter a .stopped fun f => { f with runDownTimer := none, stopCause := none }).reportFan a
      .stopped .stopped) := (Plant.fanEnter_balances_off h off .stopped _).trans .of_same
  unfold Plant.completeStop
  rw [(x.fan?_eq_some a).mpr h]
  dsimp only
  split
  · exact stopped
  · exact stopped.trans (Plant.startPath_balances hw (Plant.fanEnter_look h .stopped _) rfl)

end

/-! ### Evaluations (R105 to R111) -/

/-- As shedding goes on, the figures of group `g` are current, every energized fan stands in its group's history, and either the
minimum flow fits or all scaled fans are still to be looked at, in `l` (R108). -/
structure Plant.Sheds (g : GroupId) (l : List ActId) (x : Plant) : Prop where
  current : x.figs.look g = x.figures g
  recorded : x.Recorded
  pending : (x.figures g).minFlow ≤ (x.figures g).available ∨ ∀ a ∈ x.scaledSet g, a ∈ l

section
variable {g : GroupId} {l : List ActId} {x y : Plant}

/-- With every scaled fan looked at the minimum flow fits. -/
theorem Plant.Sheds.roomIn (h : x.Sheds g []) : x.RoomIn g := by
  refine ⟨h.current, h.recorded g, h.pending.elim id fun none => ?_⟩
  have empty : x.scaledSet g = [] := List.eq_nil_iff_forall_not_mem.mpr fun a ha => List.not_mem_nil (none a ha)
  unfold Plant.figures
  dsimp only
  rw [empty]
  split <;> exact Nat.zero_le _

theorem Plant.Sheds.balances (h : x.Sheds g l) (t : x.Balances y) : y.Sheds g l := by
  obtain k | k := t h.recorded g
  · refine ⟨by rw [k.figs, h.current, k.figures], t.recorded h.recorded, ?_⟩
    rw [k.figures, k.scaledSet]
    exact h.pending
  · exact ⟨k.current, t.recorded h.recorded, .inl k.room⟩

/-- As an evaluation begins, every scaled fan is still to be looked at. -/
theorem Plant.refresh_sheds (hx : x.Recorded) : (x.refresh g).Sheds g (x.history.look g).reverse := by
  refine ⟨x.refresh_current g, hx, .inr fun a ha => List.mem_reverse.mpr ?_⟩
  obtain ⟨f, hf, group, on, -⟩ := Plant.mem_scaledSet.mp ha
  exact Plant.granted_iff.mp (hx g) a f hf group on

end

section
variable {walk : Plant → Plant} (hw : ∀ y : Plant, y.Balances (walk y)) {g : GroupId} {x : Plant}
include hw

/-- The shed order on the fan that is looked at takes it out of those to be looked at, and leaves every other group. -/
theorem Plant.Sheds.shed {a : ActId} {l : List ActId} (h : x.Sheds g (a :: l)) (ha : a ∈ x.scaledSet g)
    (short : (x.figures g).available < (x.figures g).minFlow) :
    (x.shed walk g a).Sheds g l ∧ ∀ k, k ≠ g → Plant.Tends k x (x.shed walk g a) := by
  obtain ⟨f, hf, group, -⟩ := Plant.mem_scaledSet.mp ha
  have rest := h.pending.resolve_left (Nat.not_le.mpr short)
  have look := Plant.shedBegun_look (g := g) hf
  have recorded : (x.shedBegun g a).Recorded := by
    obtain ⟨groups, figs, history⟩ := x.shedOrdered_same (g := g) (a := a)
    have ordered : x.BalancesBut f.cfg.group (x.shedOrdered g a) :=
      .of_put hf (Plant.shedOrdered_chans hf) (fun on => absurd on Bool.false_ne_true) rfl groups figs history
    have left : (x.shedOrdered g a).Balances ((x.shedOrdered g a).leaveHistory a) :=
      .of_leaves fun k => Plant.leaveHistory_leaves (Plant.shedOrdered_look hf) (.inr rfl)
    exact left.recorded (ordered.recorded h.recorded)
  have begun : (x.shedBegun g a).Sheds g l := by
    refine ⟨x.shedBegun_current, recorded, .inr fun b hb => ?_⟩
    rw [Plant.shedBegun_scaledSet hf, List.mem_filter] at hb
    exact (List.mem_cons.mp (rest b hb.1)).resolve_left (by simpa using hb.2)
  have others (k : GroupId) (hk : k ≠ g) : Plant.Tends k x (x.shedBegun g a) := .inl (Plant.shedBegun_leaves hf group hk)
  rw [Plant.shed_eq]
  split
  · exact ⟨begun, others⟩
  · have completed := Plant.completeStop_balances hw look rfl
    exact ⟨begun.balances completed, fun k hk => (others k hk).trans (completed recorded k)⟩

/-- Shedding ends with room for the minimum flow (R108). -/
theorem Plant.Sheds.foldl {l : List ActId} (h : x.Sheds g l) :
    (l.foldl (Plant.shedStep walk g) x).Sheds g [] ∧ ∀ k, k ≠ g → Plant.Tends k x (l.foldl (Plant.shedStep walk g) x) := by
  induction l generalizing x with
  | nil => exact ⟨h, fun k _ => .inl (.refl k x)⟩
  | cons a l ih =>
    rw [List.foldl_cons]
    by_cases room : (x.figures g).minFlow ≤ (x.figures g).available
    · rw [Plant.shedStep_of_still walk h.current (.inr room)]
      exact ih ⟨h.current, h.recorded, .inl room⟩
    have short := Nat.not_le.mp room
    have rest := h.pending.resolve_left room
    by_cases ha : a ∈ x.scaledSet g
    · rw [Plant.shedStep_of_due walk h.current ha short]
      obtain ⟨shed, others⟩ := h.shed hw ha short
      obtain ⟨ended, others'⟩ := ih shed
      exact ⟨ended, fun k hk => (others k hk).trans (others' k hk)⟩
    · rw [Plant.shedStep_of_still walk h.current (.inl ha)]
      refine ih ⟨h.current, h.recorded, .inr fun b hb => (List.mem_cons.mp (rest b hb)).resolve_left ?_⟩
      rintro rfl
      exact ha hb

omit hw in
/-- An unchecked group has its figures taken afresh, and no flow to keep within a capacity (R104). -/
theorem Plant.Granted.refresh (hx : x.Granted g) (unchecked : x.checked g = false) : (x.refresh g).EvaluatedIn g := by
  obtain ⟨minFlow, available⟩ := Plant.figures_of_unchecked unchecked
  refine ⟨⟨x.refresh_current g, hx, ?_⟩, fun checked => absurd (unchecked.symm.trans checked) (by decide)⟩
  rw [x.refresh_figures, minFlow, available]

omit hw in
/-- An evaluation of group `g` by shedding and allocation, and then perhaps a search for a grant (R105, R111). -/
theorem Plant.evaluate_cases (x : Plant) (walk : Plant → Plant) (checked : x.checked g = true) :
    let y := ((x.refresh g).shedAll walk g).handSpeeds g
    x.evaluate walk g = y ∨ x.evaluate walk g = walk y := by
  have checked : (x.refresh g).checked g = true := checked
  simp only [Plant.evaluate, checked, Bool.not_true, Bool.false_eq_true, if_false]
  split
  · exact .inl rfl
  · exact .inr rfl

/-- An evaluation of group `g`: whatever has changed in it, it is evaluated, and every other group is left or evaluated. -/
theorem Plant.BalancesBut.evaluate {y : Plant} (h : x.BalancesBut (some g) y) : x.Balances (y.evaluate walk g) := by
  intro hx
  have recorded := h.recorded hx
  have fresh (k : GroupId) (hk : k ≠ g) : Plant.Tends k x (y.refresh g) :=
    (h.others hx k fun e => hk (Option.some.inj e).symm).trans (.inl (y.refresh_leaves hk))
  have every {z : Plant} (own : z.EvaluatedIn g) (others : ∀ k, k ≠ g → Plant.Tends k (y.refresh g) z) (k : GroupId) :
      Plant.Tends k x z := by
    by_cases hk : k = g
    · exact .inr (hk ▸ own)
    · exact (fresh k hk).trans (others k hk)
  cases checked : y.checked g with
  | false =>
    rw [Plant.evaluate_of_unchecked walk checked]
    exact every ((recorded g).refresh checked) fun k _ => .inl (.refl k _)
  | true =>
    obtain ⟨shed, others⟩ := (Plant.refresh_sheds (g := g) recorded).foldl hw
    rw [← y.refresh_history g, ← Plant.shedAll_eq] at shed others
    have own := shed.roomIn.handSpeeds
    have balances : x.Recorded → ∀ k, Plant.Tends k x (((y.refresh g).shedAll walk g).handSpeeds g) := fun _ =>
      every own fun k hk => (others k hk).trans (.inl (Plant.handSpeeds_leaves _ hk))
    obtain e | e := y.evaluate_cases walk checked <;> rw [e]
    · exact balances hx
    · exact Plant.Balances.trans balances (hw _) hx

end

end Sys2Proof.Machine
end

section
/-!
SUPPORT. Grants, stops, targets, dampers and the events of the channels keep the air in balance, and with them every step: O11.
-/

namespace Sys2Proof.Machine

/-! ### A fan's change taken by its group (R95, R105) -/

section
variable {x : Plant} {a : ActId} {f : Fan} (h : x.chans.look a = .fan f)
include h

/-- The applied speed that a fan sets itself matters to its own group alone (R95). -/
theorem Plant.selfApplied_balancesBut : x.BalancesBut f.cfg.group (x.selfApplied a)
    ∧ ∃ v, (x.selfApplied a).chans.look a = .fan { f with applied := v } := by
  have given (v : Nat) : x.BalancesBut f.cfg.group (x.setChan a (.fan { f with applied := v }))
      ∧ ∃ w, (x.setChan a (.fan { f with applied := v })).chans.look a = .fan { f with applied := w } := by
    have put : (x.setChan a (.fan { f with applied := v })).chans = x.chans.put a (.fan { f with applied := v }) := rfl
    exact ⟨.of_put h put id, v, Table.look_put_same ..⟩
  unfold Plant.selfApplied
  rw [(x.fan?_eq_some a).mpr h]
  dsimp only
  rw [Plant.modFan_of_fan h, Plant.modFan_of_fan h]
  split
  · exact given 0
  · split
    · exact given _
    · exact ⟨.refl x, f.applied, h⟩

/-- A change of fan `a`, to which no other group attends, handed to its group (R105). -/
theorem Plant.BalancesBut.fanTouched {walk : Plant → Plant} (hw : ∀ y : Plant, y.Balances (walk y)) {y : Plant}
    (hy : y.BalancesBut f.cfg.group x) : y.Balances (x.fanTouched walk a) := by
  obtain ⟨applied, v, look⟩ := Plant.selfApplied_balancesBut h
  have own := hy.trans applied
  unfold Plant.fanTouched
  dsimp only
  rw [(Plant.fan?_eq_some _ a).mpr look, Option.bind_some]
  dsimp only
  cases hg : f.cfg.group with
  | none =>
    rw [hg] at own
    exact own.balances
  | some g =>
    rw [hg] at own
    exact own.evaluate hw

end

/-! ### Grants and stops -/

section
variable {x : Plant} {a : ActId} {f : Fan} (h : x.chans.look a = .fan f)
include h

theorem Plant.becomeRunning_balances (on : f.energized = true) : x.Balances (x.becomeRunning a) :=
  (Plant.fanEnter_balances_on h on .running (fun f => { f with proofTimer := none, faultCause := none })
    ⟨rfl, rfl, rfl, rfl⟩).trans .of_same

/-- The permit puts the fan into its group's grant history as it is energized, and the group is evaluated (R98, R105). -/
theorem Plant.grant_balances : x.Balances (x.grant a) := by
  have look : (x.permitTaken a).chans.look a = .fan (f.permitted x.now f.applied) := by
    rw [(Plant.permitTaken_permits h).chans, Table.look_put_same]
  have taken : x.BalancesBut f.cfg.group (x.permitTaken a) := by
    have left : x.Balances (({ x with stagger := some (x.now + x.staggerInterval * 1000) } : Plant).leaveQueue a) := .of_same
    have look : (({ x with stagger := some (x.now + x.staggerInterval * 1000) } : Plant).leaveQueue a).chans.look a = .fan f := h
    have joined := left.but.trans (Plant.fanEnter_joinHistory_balancesBut look .starting fun f => { f with
      run := true, present := f.cfg.minSpeed, proofTimer := some (x.now + f.cfg.proofTime * 1000), requeue := false })
    exact joined.trans (Plant.Balances.but .of_same)
  have touched : x.Balances ((x.permitTaken a).fanTouched id a) := Plant.BalancesBut.fanTouched look .refl taken
  rw [x.grant_eq_permitTaken]
  refine touched.trans ?_
  unfold Plant.runsIfProven
  split
  case h_2 => exact .refl _
  case h_1 r hr =>
    split
    case isFalse => exact .refl _
    case isTrue proven =>
      have state : r.state = .starting := by simpa using (Bool.and_eq_true_iff.mp proven).2
      exact Plant.becomeRunning_balances ((Plant.fan?_eq_some _ a).mp hr) (Fan.energized_of_state state)

end

/-- A search for a grant (R99). -/
theorem Plant.walk_balances (x : Plant) : x.Balances x.walk := by
  unfold Plant.walk
  split
  · exact .refl x
  · split
    case h_2 => exact .refl x
    case h_1 e he =>
      have found := List.find?_some he
      have waits : x.waitsForPermit e.fan = true := (Bool.and_eq_true_iff.mp found).1
      unfold Plant.waitsForPermit at waits
      split at waits
      case h_2 => cases waits
      case h_1 f hf => exact Plant.grant_balances ((x.fan?_eq_some _).mp hf)

section
variable {x y : Plant} {a : ActId} {f : Fan} (h : x.chans.look a = .fan f) (hy : y.BalancesBut f.cfg.group x)
include h hy

/-- A fan that a change has reached stops, and its group is evaluated (R92, R105). -/
theorem Plant.BalancesBut.enterStopping (broken : Option ActId) : y.Balances (x.enterStopping Plant.walk a broken) := by
  have begun : y.Balances (x.stopBegun a broken) := by
    have look := Plant.fanEnter_look h .stopping (Fan.stopRecord x.now (x.proofPresent a) (stopCauseOf broken))
    have entered := hy.trans (Plant.fanEnter_balancesBut h .stopping
      (Fan.stopRecord x.now (x.proofPresent a) (stopCauseOf broken)))
    have touched (z : Plant) (hz : (x.fanEnter a .stopping
        (Fan.stopRecord x.now (x.proofPresent a) (stopCauseOf broken))).Balances z)
        (same : z.chans.look a = _) : y.Balances ((z.leaveHistory a).fanTouched Plant.walk a) :=
      Plant.BalancesBut.fanTouched ((congrArg (Table.look · a) (z.leaveHistory_chans a)).trans (same.trans look))
        Plant.walk_balances ((entered.trans hz.but).trans (Plant.Balances.but (.of_leaves fun _ =>
          Plant.leaveHistory_leaves (same.trans look) (.inr rfl))))
    cases broken with
    | some d => exact touched _ .of_same rfl
    | none => exact touched _ .of_same rfl
  rw [Plant.enterStopping_eq]
  split
  · exact begun
  · exact begun.trans (Plant.completeStop_balances Plant.walk_balances (x.stopBegun_look a broken h) rfl)

end

/-! ### What the other blocks hand a fan -/

theorem Plant.pathMade_balances (x : Plant) (a : ActId) : x.Balances (x.pathMade a) := by
  unfold Plant.pathMade
  split
  case h_2 => exact .refl x
  case h_1 f hf =>
    split
    case isFalse => exact .refl x
    case isTrue hs =>
      exact Plant.permitAwaited_balances Plant.walk_balances ((x.fan?_eq_some a).mp hf) (Fan.energized_of_state hs.1)
        .interlockMade

theorem Plant.pathBroken_balances (x : Plant) (a d : ActId) : x.Balances (x.pathBroken a d) := by
  cases h : x.chans.look a with
  | fan f =>
    by_cases on : f.energized = true
    · rw [Plant.pathBroken_of_energized h d on]
      exact Plant.BalancesBut.enterStopping h (.refl x) _
    · by_cases hs : f.state = .waitPermit
      · rw [Plant.pathBroken_of_waitPermit h d hs]
        have left : x.Balances (x.leaveQueue a) := .of_same
        exact (left.trans (Plant.fanEnter_balances_off (x := x.leaveQueue a) h (Fan.energized_of_state hs) .waitInterlock
          id)).trans .of_same
      · rw [Plant.pathBroken_of_other h d (Bool.eq_false_iff.mpr on) hs]
        exact .refl x
  | _ =>
    have same : x.pathBroken a d = x := by simp [Plant.pathBroken, Plant.fan?, h]
    rw [same]
    exact .refl x

section
variable {x : Plant} {a : ActId} {f : Fan} (h : x.chans.look a = .fan f) (t : FanTarget) (c : ResolvedClass)
include h

/-- The record of a fan that takes a target matters to its own group alone (R86). -/
theorem Plant.setAimed_balancesBut : x.BalancesBut f.cfg.group (x.setChan a (.fan (f.aimed t c))) :=
  .of_put h (Plant.setChan_chans ..) id

/-- A fan that is not energized takes a target. -/
theorem Plant.setAimed_balances_off (off : f.energized = false) : x.Balances (x.setChan a (.fan (f.aimed t c))) :=
  .of_leaves fun _ => .of_put (Plant.setChan_chans ..) (h ▸ .of_apart (.inr off) (.inr off))

/-- A fan takes a target by its state (R86). -/
theorem Plant.fanTarget_balances : x.Balances (x.fanTarget a t c) := by
  have aimed := Plant.setAimed_balances_off h t c
  have look : (x.setChan a (.fan (f.aimed t c))).chans.look a = .fan (f.aimed t c) := Table.look_put_same ..
  have off {st : FanState} (hs : f.state = st) (he : st.energized = false := by rfl) : f.energized = false :=
    (Fan.energized_of_state hs).trans he
  have energized (hs : f.state = .starting ∨ f.state = .running ∨ f.state = .runFault) : x.Balances (x.fanTarget a t c) := by
    rw [Plant.fanTarget_of_energized h t c hs]
    split
    · exact Plant.BalancesBut.enterStopping look (Plant.setAimed_balancesBut h t c) none
    · split
      case isTrue => exact Plant.BalancesBut.fanTouched look Plant.walk_balances (Plant.setAimed_balancesBut h t c)
      case isFalse same =>
        obtain ⟨target, manual⟩ := not_or.mp same
        refine .of_leaves fun _ => .of_put (Plant.setChan_chans ..) (h ▸ .of_kept rfl rfl ?_ (not_not.mp target) rfl)
        exact iff_of_eq (not_not.mp manual)
  cases hs : f.state with
  | stopped =>
    rw [Plant.fanTarget_of_stopped h t c hs]
    split
    · exact (aimed (off hs)).trans (Plant.startPath_balances Plant.walk_balances look (off hs))
    · exact aimed (off hs)
  | waitInterlock =>
    rw [Plant.fanTarget_of_waitInterlock h t c hs]
    split
    · exact ((aimed (off hs)).trans (Plant.fanEnter_balances_off look (off hs) .stopped id)).trans .of_same
    · exact aimed (off hs)
  | waitPermit =>
    rw [Plant.fanTarget_of_waitPermit h t c hs]
    split
    · have left : x.Balances ((x.setChan a (.fan (f.aimed t c))).leaveQueue a) := (aimed (off hs)).trans .of_same
      have look : ((x.setChan a (.fan (f.aimed t c))).leaveQueue a).chans.look a = .fan (f.aimed t c) := look
      exact (left.trans (Plant.fanEnter_balances_off look (off hs) .stopped id)).trans .of_same
    · split
      · exact (aimed (off hs)).trans (Plant.walk_balances _)
      · exact aimed (off hs)
  | starting => exact energized (.inl hs)
  | running => exact energized (.inr (.inl hs))
  | runFault => exact energized (.inr (.inr hs))
  | stopping =>
    rw [Plant.fanTarget_of_stopping h t c (.inl hs)]
    exact aimed (off hs)
  | stopFault =>
    rw [Plant.fanTarget_of_stopping h t c (.inr hs)]
    exact aimed (off hs)

end

/-! ### Dampers (R79, R106) -/

/-- The group whose area an INLET damper adds to (R106). -/
def DamperCfg.inletOf (c : DamperCfg) : Option GroupId :=
  match c.role with
  | .inlet => c.group
  | .path => none

section
variable {x : Plant} {a : ActId} {d : Damper}

/-- Two records of a damper that stand AT_OPEN alike are the same to every group. -/
theorem Channel.AirAlike.of_damper {g : GroupId} {e : Damper} (hc : e.cfg = d.cfg)
    (hs : d.cfg.inletOf = some g → (d.state = .atOpen ↔ e.state = .atOpen)) : (Channel.damper d).AirAlike g (.damper e) := by
  refine ⟨?_, rfl, rfl⟩
  unfold Channel.area
  dsimp only
  rw [hc]
  by_cases own : d.cfg.role = .inlet ∧ d.cfg.group = some g
  · have state := hs (by unfold DamperCfg.inletOf; rw [own.1]; exact own.2)
    simp only [own, state, true_and]
  · rw [if_neg fun k => own ⟨k.1, k.2.1⟩, if_neg fun k => own ⟨k.1, k.2.1⟩]

/-- The hand-off of an entry to AT_OPEN or a departure from it, of which no group but the inlet's has anything (R79, R105). -/
theorem Plant.handOpenness_balances {y : Plant} {was is : DamperState} {cfg : DamperCfg}
    (hy : y.BalancesBut cfg.inletOf x) (alike : (was = .atOpen ↔ is = .atOpen) → y.Balances x) :
    y.Balances (x.handOpenness a was is cfg) := by
  by_cases same : was = .atOpen ↔ is = .atOpen
  · rw [Plant.handOpenness_of_alike _ _ _ same]
    exact alike same
  have handed : x.Balances (x.openHanded a is) := by
    unfold Plant.openHanded
    split
    · exact .foldl Plant.pathMade_balances _ x
    · exact .foldl (fun z f => z.pathBroken_balances f a) _ x
  have reached := hy.trans handed.but
  cases hr : cfg.role with
  | path =>
    rw [x.handOpenness_of_path a same hr]
    exact Plant.BalancesBut.balances (by rw [DamperCfg.inletOf, hr] at reached; exact reached)
  | inlet =>
    rw [DamperCfg.inletOf, hr] at reached
    dsimp only at reached
    cases hg : cfg.group with
    | none =>
      have alone : x.handOpenness a was is cfg = x.openHanded a is := by
        unfold Plant.handOpenness
        rw [if_neg fun e => same (iff_of_eq e), hr, hg]
        rfl
      rw [alone]
      exact (hg ▸ reached).balances
    | some g =>
      rw [x.handOpenness_of_inlet a same hr hg]
      exact Plant.BalancesBut.evaluate Plant.walk_balances (hg ▸ reached)

/-- A damper goes from the state it stands in to a new record (R79). -/
theorem Plant.damperEnter_balances (h : x.chans.look a = .damper d) (e : Damper) (k : ReportKind) (detail : Option Detail)
    (hc : e.cfg = d.cfg := by rfl) : x.Balances (x.damperEnter a d.state e k detail) := by
  have put (g : GroupId) (hs : d.cfg.inletOf = some g → (d.state = .atOpen ↔ e.state = .atOpen)) :
      Plant.Leaves g x (x.setChan a (.damper e)) := .of_put (Plant.setChan_chans ..) (h ▸ .of_damper hc hs)
  have others : x.BalancesBut e.cfg.inletOf (x.setChan a (.damper e)) := by
    refine ⟨fun _ g hg => .inl (put g fun own => absurd own (hc ▸ hg)), fun hx g b on => ?_⟩
    refine hx g b ?_
    rw [Plant.setChan_chans, Table.look_put] at on
    split at on
    · cases on
    · exact on
  have entered {y : Plant} (hy : (x.setChan a (.damper e)).Balances y) :
      x.Balances (y.handOpenness a d.state e.state e.cfg) :=
    Plant.handOpenness_balances (others.trans hy.but) fun same => (Plant.Balances.of_leaves fun g => put g fun _ => same).trans hy
  unfold Plant.damperEnter
  dsimp only
  split
  · exact entered .of_same
  · exact entered .of_same

/-- A damper takes a target position (R69). -/
theorem Plant.damperTarget_balances (x : Plant) (a : ActId) (p : DamperPos) : x.Balances (x.damperTarget a p) := by
  unfold Plant.damperTarget
  split
  case h_2 => exact .refl x
  case h_1 d hd =>
    have look := (x.damper?_eq_some a).mp hd
    split
    · exact .refl x
    · dsimp only
      split
      · exact .of_leaves fun _ => .of_put (Plant.setChan_chans ..) (look ▸ .of_damper rfl fun _ => Iff.rfl)
      · exact Plant.damperEnter_balances look _ _ _
      · exact Plant.damperEnter_balances look _ _ _
      iterate 3
        · split
          · exact Plant.damperEnter_balances look _ _ _
          · exact Plant.damperEnter_balances look _ _ _

/-- A damper acts on its switches (R70 to R73, R75). -/
theorem Plant.damperSwitch_balances (h : x.chans.look a = .damper d) : x.Balances (x.damperSwitch a d) := by
  have faulted : x.Balances (x.enterSwitchFault a d) := Plant.damperEnter_balances h _ _ _
  have arrived (k : ReportKind) : x.Balances (x.arrive a d k) := by
    have captured : x.Balances (x.capture a d.cfg.travelLimit (d.captured x.now)) := by
      cases d.captured x.now <;> exact .of_same
    exact captured.trans (Plant.damperEnter_balances ((congrArg (Table.look · a) (Plant.capture_chans ..)).trans h) _ _ _)
  unfold Plant.damperSwitch
  dsimp only
  cases hs : d.state with
  | opening | closing | travelFault =>
    dsimp only
    split
    · exact arrived _
    · split
      · exact faulted
      · exact .refl x
  | atOpen | atClosed =>
    dsimp only
    split
    · exact faulted
    · split
      · exact .refl x
      · exact hs ▸ Plant.damperEnter_balances h _ _ _
  | switchFault =>
    dsimp only
    split
    · exact .refl x
    · split
      · exact hs ▸ Plant.damperEnter_balances h _ _ _
      · exact hs ▸ Plant.damperEnter_balances h _ _ _

end

/-! ### Events (R64, R66, R74, R76, R84, R90 to R94, R99) -/

section
variable (x : Plant) (a : ActId)

theorem Plant.setSwitches_balances (o c : Bool) : x.Balances (x.setSwitches a o c) := .of_same

theorem Plant.switchChange_balances (o c : Bool) : x.Balances (x.switchChange a o c) := by
  unfold Plant.switchChange
  dsimp only
  split
  case h_1 => exact x.setSwitches_balances a o c
  case h_2 => exact .refl x
  case h_3 d hd =>
    split
    · exact .refl x
    · exact (x.setSwitches_balances a o c).trans (Plant.damperSwitch_balances (x := x.setSwitches a o c) hd)

/-- Channels changed for ones that are the same to every group. -/
theorem Plant.withChans_balances (chans : Table Channel 64) (h : ∀ g a, (x.chans.look a).AirAlike g (chans.look a))
    {y : Plant} (hc : y.chans = chans := by rfl) (hg : y.groups = x.groups := by rfl)
    (hf : y.figs = x.figs := by rfl) (hh : y.history = x.history := by rfl) : x.Balances y :=
  .of_leaves fun g => ⟨hg, fun b => hc ▸ h g b, by rw [hf], fun _ k _ => by rw [hh]; exact k⟩

theorem Plant.reach_balances (t : Nat) : x.Balances (x.reach t) := by
  refine x.withChans_balances (x.reach t).chans fun g b => ?_
  obtain e | e := x.reach_look t b <;> rw [e]
  · exact .refl g _
  · cases x.chans.look b with
    | fan f => exact .of_kept rfl rfl Iff.rfl rfl rfl
    | _ => exact .refl g _

/-- The slew update moves present speeds, by which no group goes (R94). -/
theorem Plant.slewUpdate_balances : x.Balances x.slewUpdate := by
  refine x.withChans_balances (x.chans.map Channel.slew) fun g b => ?_
  rw [Table.look_map]
  cases x.chans.look b with
  | fan f =>
    unfold Channel.slew
    dsimp only
    split
    · exact .of_kept rfl rfl Iff.rfl rfl rfl
    · exact .refl g _
  | _ => exact .refl g _

theorem Plant.travelExpiry_balances : x.Balances (x.travelExpiry a) := by
  unfold Plant.travelExpiry
  split
  case h_2 => exact .refl x
  case h_1 d hd =>
    have look := (x.damper?_eq_some a).mp hd
    split
    · split
      · refine (x.reach_balances _).trans (Plant.damperEnter_balances ?_ _ _ _)
        obtain e | e := x.reach_look _ a <;> rw [e, look]
        rfl
      · exact .refl x
    · exact .refl x

theorem Plant.clearDamper_balances : x.Balances (x.clearDamper a) := by
  unfold Plant.clearDamper
  split
  case h_2 => exact .refl x
  case h_1 d hd =>
    split
    · exact Plant.damperEnter_balances ((x.damper?_eq_some a).mp hd) _ _ _
    · exact .refl x

theorem Plant.clearFan_balances : x.Balances (x.clearFan a) := by
  unfold Plant.clearFan
  split
  case h_2 => exact .refl x
  case h_1 f hf =>
    have look := (x.fan?_eq_some a).mp hf
    split
    case h_1 hs =>
      exact (Plant.fanEnter_balances_on look (Fan.energized_of_state hs) .starting (fun f =>
        { f with faultCause := none, present := f.cfg.minSpeed, proofTimer := some (x.now + f.cfg.proofTime * 1000) })
          ⟨rfl, rfl, rfl, rfl⟩).trans .of_same
    case h_2 hs =>
      exact (Plant.fanEnter_balances_off look (Fan.energized_of_state hs) .stopping fun f =>
        { f with runDownTimer := some (x.now + f.cfg.runDown * 1000) }).trans .of_same
    case h_3 => exact .refl x

theorem Plant.setProof_balances (v : Bool) : x.Balances (x.setProof a v) := .of_same

theorem Plant.proofArrives_balances : x.Balances (x.proofArrives a) := by
  have proven := x.setProof_balances a true
  unfold Plant.proofArrives
  split
  case h_1 => exact .refl x
  case h_2 => exact proven
  case h_3 f hf =>
    split
    · exact .refl x
    · split
      case isTrue hs =>
        refine proven.trans (Plant.becomeRunning_balances (x := x.setProof a true) hf ?_)
        obtain hs | hs := hs <;> exact Fan.energized_of_state hs
      case isFalse => exact proven

theorem Plant.proofLost_balances : x.Balances (x.proofLost a) := by
  have lost := x.setProof_balances a false
  have completes {f : Fan} (h : x.chans.look a = .fan f) (off : f.energized = false) :
      x.Balances ((x.setProof a false).completeStop Plant.walk a) :=
    lost.trans (Plant.completeStop_balances (x := x.setProof a false) Plant.walk_balances h off)
  unfold Plant.proofLost
  split
  case h_1 => exact .refl x
  case h_2 => exact lost
  case h_3 f hf =>
    split
    · exact .refl x
    · dsimp only
      split
      case h_1 hs =>
        exact (lost.trans (Plant.fanEnter_balances_on (x := x.setProof a false) hf (Fan.energized_of_state hs) .runFault
          (fun f => { f with faultCause := some .proofLost }) ⟨rfl, rfl, rfl, rfl⟩)).trans .of_same
      case h_2 hs => exact completes hf (Fan.energized_of_state hs)
      case h_3 hs => exact completes hf (Fan.energized_of_state hs)
      case h_4 => exact lost

theorem Plant.proofExpiry_balances : x.Balances (x.proofExpiry a) := by
  unfold Plant.proofExpiry
  split
  case h_2 => exact .refl x
  case h_1 f hf =>
    split
    case h_2 => exact .refl x
    case h_1 d hs _ =>
      obtain ⟨r, look, state⟩ := Plant.reach_fan_state ((x.fan?_eq_some a).mp hf) d
      exact ((x.reach_balances d).trans (Plant.fanEnter_balances_on look (Fan.energized_of_state (state.trans hs)) .runFault
        (fun f => { f with proofTimer := none, faultCause := some .noProof }) ⟨rfl, rfl, rfl, rfl⟩)).trans .of_same

theorem Plant.runDownExpiry_balances : x.Balances (x.runDownExpiry a) := by
  unfold Plant.runDownExpiry
  split
  case h_2 => exact .refl x
  case h_1 f hf =>
    split
    case h_2 => exact .refl x
    case h_1 d hs _ =>
      obtain ⟨r, look, state⟩ := Plant.reach_fan_state ((x.fan?_eq_some a).mp hf) d
      exact ((x.reach_balances d).trans (Plant.fanEnter_balances_off look (Fan.energized_of_state (state.trans hs)) .stopFault
        fun f => { f with runDownTimer := none })).trans .of_same

theorem Plant.staggerExpiry_balances : x.Balances x.staggerExpiry := by
  unfold Plant.staggerExpiry
  split
  case h_2 => exact .refl x
  case h_1 d _ =>
    have elapsed : (x.reach d).Balances { x.reach d with stagger := none } := .of_same
    exact ((x.reach_balances d).trans elapsed).trans (Plant.walk_balances _)

/-! ### Demands (R49) -/

theorem Plant.channelTakes_balances (r : Resolved) : x.Balances (x.channelTakes a r) := by
  unfold Plant.channelTakes
  split
  · exact x.damperTarget_balances a _
  · rename_i t _
    cases h : x.fan? a with
    | some f => exact Plant.fanTarget_balances ((x.fan?_eq_some a).mp h) t r.cls
    | none =>
      unfold Plant.fanTarget
      rw [h]
      exact .refl x

theorem Plant.setDemands_balances (l : List Demand) : x.Balances (x.setDemands a l) := by
  have listed : x.Balances { x with demands := x.demands.put a l } := .of_same
  unfold Plant.setDemands
  dsimp only
  split
  · split
    · exact listed
    · unfold Plant.handOff
      dsimp only
      split
      · exact (listed.trans (Plant.channelTakes_balances _ a _)).trans .of_same
      · refine Plant.Balances.trans (Plant.Balances.trans ?_ (Plant.channelTakes_balances _ a _)) .of_same
        exact listed.trans .of_same
  · exact listed

end

/-! ### Every step -/

/-- Every operation on the channel side leaves each group as it is or evaluates it. -/
theorem Plant.Acts.balances {x y : Plant} (h : Plant.Acts x y) : x.Balances y := by
  induction h with
  | refl x => exact .refl x
  | trans _ _ ih ih' => exact ih.trans ih'
  | reach x t => exact x.reach_balances t
  | setDemands x a l => exact x.setDemands_balances a l
  | clearDamper x a => exact x.clearDamper_balances a
  | clearFan x a => exact x.clearFan_balances a
  | switchChange x a o c => exact x.switchChange_balances a o c
  | travelExpiry x a => exact x.travelExpiry_balances a
  | proofArrives x a => exact x.proofArrives_balances a
  | proofLost x a => exact x.proofLost_balances a
  | proofExpiry x a => exact x.proofExpiry_balances a
  | runDownExpiry x a => exact x.runDownExpiry_balances a
  | staggerExpiry x => exact x.staggerExpiry_balances
  | slewUpdate x => exact x.slewUpdate_balances
  | report | sampled | dueTaken | notesTaken | ffRead | blRead => exact .of_same

/-- The derivation takes the figures afresh (R103). -/
theorem Plant.derived_current (m : Pmc) (chans : Table ChanCfg 64) (x : Plant) (g : GroupId) :
    (x.derived m chans).figs.look g = (x.derived m chans).figures g := by
  unfold Plant.derived
  dsimp only
  rw [Table.look_of]
  exact Plant.figures_congr (by dsimp only) (by dsimp only) g

/-- At the end of a start-up operation the figures are taken afresh and no fan is energized (R82, R103). -/
theorem State.completeStartUp_balancedIn (kind : StartKind) (s : State) (g : GroupId) :
    (s.completeStartUp kind).plant.BalancedIn g := by
  have derived : ∃ (x : Plant) (m : Pmc) (chans : Table ChanCfg 64), (s.completeStartUp kind).plant
      = (x.derived m chans).report .controllerStarted none none (some (.startKind kind)) := ⟨_, _, _, rfl⟩
  have current : (s.completeStartUp kind).plant.figs.look g = (s.completeStartUp kind).plant.figures g := by
    obtain ⟨x, m, chans, e⟩ := derived
    rw [e, Plant.report_figs, Plant.derived_current]
    exact (Plant.figures_congr (Plant.report_chans ..) (Plant.report_groups ..) g).symm
  have off (a : ActId) (f : Fan) (h : (s.completeStartUp kind).plant.chans.look a = .fan f) : f.energized = false := by
    obtain ⟨c, i, -, look⟩ := s.completeStartUp_look kind a
    rw [look] at h
    cases c with
    | fan c => rw [← Channel.fan.inj h, c.derive_energized]
    | _ => cases h
  refine ⟨current, fun a f h _ on => absurd ((off a f h).symm.trans on) (by decide), fun _ => ?_⟩
  have none : (s.completeStartUp kind).plant.scaledSet g = [] := List.eq_nil_iff_forall_not_mem.mpr fun a ha => by
    obtain ⟨f, hf, -, on, -⟩ := Plant.mem_scaledSet.mp ha
    exact absurd ((off a f hf).symm.trans on) (by decide)
  rw [none]
  exact Nat.zero_le _

/-- Settles O11: each operation of the channel side leaves a group as it is or evaluates it, and at the end of a start-up operation
no fan is energized. -/
theorem everyStepKeepsTheAirInBalance : Obligations.EveryStepKeepsTheAirInBalance := by
  intro s t h e ht g
  obtain ⟨hr, acts⟩ | ⟨kind, u, rfl⟩ := step_acts_or_starts e ht
  · have recorded : s.plant.Recorded := fun k => Plant.granted_iff.mpr (h hr k).granted
    exact (acts.balances recorded g).balancedIn (h hr g)
  · exact u.completeStartUp_balancedIn kind g

end Sys2Proof.Machine
end

section
/-!
SUPPORT. An evaluation that looks for no grant, fan by fan: whom it sheds, what it leaves of a shed fan, and the speeds of the others
(R103 to R110): O44.
-/

namespace Sys2Proof.Machine

/-! ### The available capacity (R106, R107) -/

/-- The demanded flow of an energized MANUAL fan of group `g` (R107). -/
def Channel.manualFlow (g : GroupId) : Channel → Nat
  | .fan f => if f.cfg.group = some g ∧ f.energized = true ∧ f.cls = .manual then f.cfg.rated * f.demanded else 0
  | _ => 0

section
variable {x y : Plant} {g : GroupId}

/-- The available capacity of a checked group, as a sum over all channels (R106, R107). -/
theorem Plant.available_eq (checked : x.checked g = true) : (x.figures g).available =
    100 * (x.groups.look g).velocity * (allActs.map fun a => (x.chans.look a).area g).sum
      - (allActs.map fun a => (x.chans.look a).manualFlow g).sum := by
  have manual : ((x.manualSet g).map x.demandFlow).sum = (allActs.map fun a => (x.chans.look a).manualFlow g).sum := by
    unfold Plant.manualSet
    rw [sum_map_filter]
    refine congrArg List.sum (List.map_congr_left fun a _ => ?_)
    unfold Plant.inSet Plant.demandFlow Plant.fan? Channel.manualFlow
    cases x.chans.look a with
    | fan f => simp [and_assoc]
    | _ => rfl
  have areas : x.openArea g = fun a => (x.chans.look a).area g := funext (x.openArea_eq g)
  unfold Plant.figures
  dsimp only
  rw [if_pos checked]
  dsimp only
  rw [manual, areas]

/-- The available capacity goes by the dampers and the MANUAL fans. -/
theorem Plant.available_congr (groups : y.groups = x.groups) (area : ∀ a, (y.chans.look a).area g = (x.chans.look a).area g)
    (manual : ∀ a, (y.chans.look a).manualFlow g = (x.chans.look a).manualFlow g) :
    (y.figures g).available = (x.figures g).available := by
  cases checked : x.checked g with
  | false =>
    have checked' : y.checked g = false := by rw [Plant.checked, groups]; exact checked
    rw [(Plant.figures_of_unchecked checked).2, (Plant.figures_of_unchecked checked').2]
  | true =>
    have checked' : y.checked g = true := by rw [Plant.checked, groups]; exact checked
    rw [Plant.available_eq checked, Plant.available_eq checked', groups]
    simp only [area, manual]

/-- The minimum flow of a checked group (R103). -/
theorem Plant.minFlow_eq (checked : x.checked g = true) :
    (x.figures g).minFlow = ((x.scaledSet g).map x.leastFlow).sum := by
  unfold Plant.figures
  dsimp only
  rw [if_pos checked]

end

/-! ### One fan shed (R92, R96) -/

/-- What is left of a fan on a shed order: its run output off at speed 0 with a requeue note, and while its proof is present the record
of R96. -/
structure Fan.Shed (now : Nat) (proof : Bool) (f r : Fan) : Prop where
  run : r.run = false
  applied : r.applied = 0
  present : r.present = 0
  requeue : r.requeue = true
  off : r.energized = false
  proven : proof = true → r = f.shedRecord now true

section
variable {x : Plant} {a : ActId} {f : Fan} (h : x.chans.look a = .fan f)
include h

/-- A stop that completes without a search for a grant changes the fan's channel alone (R86, R92). -/
theorem Plant.completeStop_id_of_fan :
    (∃ st, st.energized = false ∧ (x.completeStop id a).chans.look a
        = .fan { f with state := st, runDownTimer := none, stopCause := none })
      ∧ (∀ b, b ≠ a → (x.completeStop id a).chans.look b = x.chans.look b)
      ∧ (x.completeStop id a).figs = x.figs ∧ (x.completeStop id a).stagger = x.stagger := by
  have stopped : (x.fanBecomes a f.halted .stopped).chans.look a = .fan f.halted := Table.look_put_same ..
  have entered : (x.fanEnter a .stopped fun f => { f with runDownTimer := none, stopCause := none }).reportFan a .stopped
      .stopped = x.fanBecomes a f.halted .stopped := Plant.fanEnter_reportFan_of_sound h _ _ rfl
  have other (y : Plant) (r : Fan) (c : FanCause) (b : ActId) (hb : b ≠ a) :
      (y.fanBecomes a r c).chans.look b = y.chans.look b := Table.look_put_other _ _ _ _ hb
  unfold Plant.completeStop
  rw [(x.fan?_eq_some a).mpr h]
  dsimp only
  rw [entered, Plant.startPath_eq stopped]
  split
  · exact ⟨⟨.stopped, rfl, stopped⟩, other x _ .command, rfl, rfl⟩
  · split
    · rw [id, Plant.joinQueue_of_fan (f := { f.halted with state := .waitPermit }) (Table.look_put_same ..)]
      exact ⟨⟨.waitPermit, rfl, Table.look_put_same ..⟩,
        fun b hb => (other _ _ .command b hb).trans (other x _ .command b hb), rfl, rfl⟩
    · exact ⟨⟨.waitInterlock, rfl, Table.look_put_same ..⟩,
        fun b hb => (other _ _ .command b hb).trans (other x _ .command b hb), rfl, rfl⟩

/-- A shed order that brings no search for a grant changes its fan's channel alone, and takes the figures afresh (R96, R108). -/
theorem Plant.shed_id_of_fan (g : GroupId) :
    (∃ r, (x.shed id g a).chans.look a = .fan r ∧ Fan.Shed x.now (x.proofPresent a) f r)
      ∧ (∀ b, b ≠ a → (x.shed id g a).chans.look b = x.chans.look b)
      ∧ (x.shed id g a).figs.look g = (x.shedBegun g a).figures g ∧ (x.shed id g a).stagger = x.stagger := by
  have look := Plant.shedBegun_look (g := g) h
  have other (b : ActId) (hb : b ≠ a) : (x.shedBegun g a).chans.look b = x.chans.look b := by
    rw [Plant.shedBegun_chans h, Table.look_put_other _ _ _ _ hb]
  have stagger : (x.shedBegun g a).stagger = x.stagger := by
    have left : ((x.shedOrdered g a).leaveHistory a).stagger = (x.shedOrdered g a).stagger := by
      unfold Plant.leaveHistory
      split
      · split <;> rfl
      · rfl
    exact left.trans (Plant.fanEnter_of_fan (x := x.report ..) h .stopping _).2.2.1
  rw [Plant.shed_eq]
  cases proof : x.proofPresent a with
  | true =>
    rw [proof] at look
    exact ⟨⟨_, look, rfl, rfl, rfl, rfl, rfl, fun _ => rfl⟩, other, x.shedBegun_current, stagger⟩
  | false =>
    obtain ⟨⟨st, off, own⟩, other', figs, stagger'⟩ := Plant.completeStop_id_of_fan look
    refine ⟨⟨_, own, rfl, rfl, rfl, rfl, off, fun k => by cases k⟩, fun b hb => (other' b hb).trans (other b hb), ?_,
      stagger'.trans stagger⟩
    exact (congrArg (Table.look · g) figs).trans x.shedBegun_current

end

/-- Two plants whose channels but `a` are the same, where `a` is a fan that is not energized in either. -/
theorem Plant.figures_of_off {x y : Plant} {a : ActId} {f r : Fan} (hx : x.chans.look a = .fan f) (hy : y.chans.look a = .fan r)
    (fOff : f.energized = false) (rOff : r.energized = false) (other : ∀ b, b ≠ a → y.chans.look b = x.chans.look b)
    (groups : y.groups = x.groups) (g : GroupId) : y.figures g = x.figures g := by
  have alike (b : ActId) : (x.chans.look b).AirAlike g (y.chans.look b) := by
    by_cases e : b = a
    · rw [e, hx, hy]
      exact .of_apart (.inr fOff) (.inr rOff)
    · rw [other b e]
      exact .refl g _
  exact Plant.figures_congr_air groups (fun b => (alike b).area) fun b => (alike b).draw

/-! ### Shedding without a search for a grant (R108) -/

/-- The report of a shed order on fan `a` at the available capacity `A` (R96, R156). -/
def shedReport (now A : Nat) (a : ActId) : Report :=
  ⟨.fanShed, now % 4294967296, some (.actuator a), some (.fan .stopping), some (.capacity (A / 1000))⟩

/-- A shed order reports itself, and takes no report out of the queues (R156). -/
theorem Plant.shed_reports (x : Plant) (g : GroupId) (a : ActId) :
    (x.ffReports.take (shedReport x.now (x.figs.look g).available a)).Grows (x.shed id g a).ffReports
      ∧ (x.blReports.take (shedReport x.now (x.figs.look g).available a)).Grows (x.shed id g a).blReports := by
  have begun : (x.report .fanShed (some (.actuator a)) (some (.fan .stopping))
      (some (.capacity ((x.figs.look g).available / 1000)))).Runs (x.shedBegun g a) :=
    ((Plant.fanEnter_runs _ a _ _).trans (Plant.leaveHistory_runs ..)).trans (Plant.refresh_runs ..)
  suffices runs : (x.report .fanShed (some (.actuator a)) (some (.fan .stopping))
      (some (.capacity ((x.figs.look g).available / 1000)))).Runs (x.shed id g a) from runs.grows
  rw [Plant.shed_eq]
  split
  · exact begun
  · exact begun.trans (Plant.completeStop_runs Plant.Runs.refl _ a)

/-- In `y` fan `a` of the scaled set of `x` has been shed, at the available capacity `A`: it was due, with all more recent grants, and
stands shed and reported (R96, R108). -/
structure Plant.ShedIn (g : GroupId) (A : Nat) (x y : Plant) (a : ActId) : Prop where
  due : A < (((x.scaledSet g).filter fun b => decide ((x.history.look g).idxOf b ≤ (x.history.look g).idxOf a)).map
    x.leastFlow).sum
  recent : ∀ b ∈ x.scaledSet g, (x.history.look g).idxOf a ≤ (x.history.look g).idxOf b → b ∉ y.scaledSet g
  record : ∀ f, x.chans.look a = .fan f → ∃ r, y.chans.look a = .fan r ∧ Fan.Shed x.now (x.proofPresent a) f r
  reported : (y.ffReports.reports.length < 32 → shedReport x.now A a ∈ y.ffReports.reports)
    ∧ (y.blReports.reports.length < 32 → shedReport x.now A a ∈ y.blReports.reports)

/-- From `x`, whose figures of group `g` are current, shedding without a search for a grant has come to `y`, with the fans of `l` still
to be looked at. -/
structure Plant.ShedTo (g : GroupId) (l : List ActId) (x y : Plant) : Prop where
  keeps : x.Keeps y
  stagger : y.stagger = x.stagger
  current : y.figs.look g = y.figures g
  available : (y.figures g).available = (x.figures g).available
  subset : ∀ a ∈ y.scaledSet g, a ∈ x.scaledSet g
  same : ∀ a, (a ∈ x.scaledSet g → a ∈ y.scaledSet g) → y.chans.look a = x.chans.look a
  shed : ∀ a ∈ x.scaledSet g, a ∉ y.scaledSet g → Plant.ShedIn g (x.figures g).available x y a
  pending : (y.figures g).minFlow ≤ (y.figures g).available ∨ ∀ a ∈ y.scaledSet g, a ∈ l

section
variable {g : GroupId} {l : List ActId} {x y : Plant} (h : Plant.ShedTo g l x y)
include h

theorem Plant.ShedTo.sublist : (y.scaledSet g).Sublist (x.scaledSet g) := by
  refine List.monotone_filter_right allActs fun a ha => ?_
  have member : a ∈ y.scaledSet g := List.mem_filter.mpr ⟨List.mem_finRange a, ha⟩
  exact (List.mem_filter.mp (h.subset a member)).2

/-- A fan that has not been shed has the least flow that it had. -/
theorem Plant.ShedTo.leastFlow {a : ActId} (ha : a ∈ y.scaledSet g) : y.leastFlow a = x.leastFlow a := by
  unfold Plant.leastFlow Plant.fan?
  rw [h.same a fun _ => ha]

theorem Plant.ShedTo.checked : y.checked g = x.checked g := by
  rw [Plant.checked, Plant.checked, h.keeps.groups]

theorem Plant.ShedTo.minFlow (checked : x.checked g = true) :
    (y.figures g).minFlow = ((y.scaledSet g).map x.leastFlow).sum := by
  rw [Plant.minFlow_eq (h.checked.trans checked)]
  exact congrArg List.sum (List.map_congr_left fun a ha => h.leastFlow ha)

end

/-- A report stands in a queue that has gone on from it and is not full. -/
theorem ReportQueue.Grows.mem {q p : ReportQueue} {r : Report} (h : (q.take r).Grows p) (room : p.reports.length < 32) :
    r ∈ p.reports := by
  have shorter : q.reports.length < 32 := (((q.take_grows r).trans h).length_le).trans_lt room
  obtain ⟨more, e⟩ := h.next shorter
  rw [e]
  simp

section
variable {g : GroupId} {l p : List ActId} {x y : Plant} {a : ActId}

/-- In a history without repetition what is looked at later was granted before. -/
theorem idxOf_lt_of_mem_later {h : List ActId} (once : h.Nodup) (cut : h.reverse = p ++ a :: l) {b : ActId} (hb : b ∈ l) :
    h.idxOf b < h.idxOf a := by
  have e : h = l.reverse ++ (a :: p.reverse) := by
    rw [← List.reverse_reverse h, cut]
    simp
  have out : a ∉ l.reverse := by
    rw [e] at once
    exact fun k => (List.disjoint_of_nodup_append once) k List.mem_cons_self
  rw [e, List.idxOf_append_of_mem (List.mem_reverse.mpr hb), List.idxOf_append_of_notMem out]
  exact (List.idxOf_lt_length_iff.mpr (List.mem_reverse.mpr hb)).trans_le (Nat.le_add_right ..)

/-- A shed order takes its fan out of the scaled set, and no other. -/
theorem Plant.shed_scaledSet {f : Fan} (hf : y.chans.look a = .fan f) :
    (y.shed id g a).scaledSet g = (y.scaledSet g).filter (· != a) := by
  obtain ⟨⟨r, own, record⟩, other, -, -⟩ := Plant.shed_id_of_fan hf g
  refine Plant.scaledSet_of_off other ?_
  rw [own]
  exact if_neg fun k => absurd (record.off.symm.trans k.2) (by decide)

section
variable (h : Plant.ShedTo g (a :: l) x y) (once : (x.history.look g).Nodup) (cut : (x.history.look g).reverse = p ++ a :: l)
  (short : (y.figures g).available < (y.figures g).minFlow) (ha : a ∈ y.scaledSet g)
include h once cut short

/-- The scaled fans other than the next one looked at were granted before it. -/
theorem Plant.ShedTo.older {b : ActId} (hb : b ∈ y.scaledSet g) (other : b ≠ a) :
    b ∈ l ∧ (x.history.look g).idxOf b < (x.history.look g).idxOf a := by
  have later := (List.mem_cons.mp (h.pending.resolve_left (Nat.not_le.mpr short) b hb)).resolve_left other
  exact ⟨later, idxOf_lt_of_mem_later once cut later⟩

include ha

/-- What becomes of the next fan looked at, where it is shed. -/
theorem Plant.ShedTo.shedIn_next (checked : x.checked g = true) :
    Plant.ShedIn g (x.figures g).available x (y.shed id g a) a := by
  obtain ⟨f, hf, -⟩ := Plant.mem_scaledSet.mp ha
  obtain ⟨ff, bl⟩ := y.shed_reports g a
  have rest : (y.scaledSet g).Sublist
      ((x.scaledSet g).filter fun b => decide ((x.history.look g).idxOf b ≤ (x.history.look g).idxOf a)) := by
    have all := h.sublist.filter fun b => decide ((x.history.look g).idxOf b ≤ (x.history.look g).idxOf a)
    rw [List.filter_eq_self.mpr fun b hb => ?_] at all
    · exact all
    refine decide_eq_true ?_
    by_cases e : b = a
    · rw [e]
    · exact (h.older once cut short hb e).2.le
  rw [h.current, h.available, h.keeps.now] at ff bl
  refine ⟨?_, fun b _ le k => ?_, fun q hq => ?_, ff.mem, bl.mem⟩
  · rw [h.minFlow checked, h.available] at short
    exact short.trans_le ((rest.map _).sum_le_sum fun _ _ => Nat.zero_le _)
  · rw [Plant.shed_scaledSet hf, List.mem_filter, bne_iff_ne] at k
    exact absurd le (Nat.not_le.mpr (h.older once cut short k.1 k.2).2)
  · rw [← h.same a fun _ => ha, hf] at hq
    cases hq
    have proof : y.proofPresent a = x.proofPresent a := by rw [Plant.proofPresent, Plant.proofPresent, h.keeps.inputs]
    rw [← h.keeps.now, ← proof]
    exact (Plant.shed_id_of_fan hf g).1

/-- The next fan looked at is shed (R108). -/
theorem Plant.ShedTo.shed_next (checked : x.checked g = true) : Plant.ShedTo g l x (y.shed id g a) := by
  obtain ⟨f, hf, group, on, scaled⟩ := Plant.mem_scaledSet.mp ha
  obtain ⟨⟨r, own, record⟩, other, figs, stagger⟩ := Plant.shed_id_of_fan hf g
  have keeps := Plant.shed_keeps Plant.id_keeps y a g
  have left {b : ActId} : b ∈ (y.shed id g a).scaledSet g ↔ b ∈ y.scaledSet g ∧ b ≠ a := by
    rw [Plant.shed_scaledSet hf, List.mem_filter, bne_iff_ne]
  obtain ⟨ff, bl⟩ := y.shed_reports g a
  refine ⟨h.keeps.trans keeps, stagger.trans h.stagger, ?_, ?_, fun b hb => h.subset b (left.mp hb).1, fun b hb => ?_,
    fun b hb out => ?_, .inr fun b hb => (h.older once cut short (left.mp hb).1 (left.mp hb).2).1⟩
  · refine figs.trans (Eq.symm ?_)
    refine Plant.figures_of_off (Plant.shedBegun_look hf) own rfl record.off (fun b hb => ?_) ?_ g
    · rw [other b hb, Plant.shedBegun_chans hf, Table.look_put_other _ _ _ _ hb]
    · exact keeps.groups.trans
        (((Plant.leaveHistory_keeps _ a).groups.trans y.shedOrdered_same.1).symm)
  · refine Eq.trans (Plant.available_congr keeps.groups (fun b => ?_) fun b => ?_) h.available
    · by_cases e : b = a
      · rw [e, own, hf]
        rfl
      · rw [other b e]
    · by_cases e : b = a
      · rw [e, own, hf]
        exact (if_neg fun k => absurd (record.off.symm.trans k.2.1) (by decide)).trans (if_neg fun k => scaled k.2.2).symm
      · rw [other b e]
  · have stays : b ≠ a := fun e => (left.mp (hb (h.subset b (e ▸ ha)))).2 e
    exact (other b stays).trans (h.same b fun k => (left.mp (hb k)).1)
  · by_cases e : b = a
    · rw [e] at hb ⊢
      exact h.shedIn_next once cut short ha checked
    · have gone : b ∉ y.scaledSet g := fun k => out (left.mpr ⟨k, e⟩)
      obtain ⟨due, recent, record, reported⟩ := h.shed b hb gone
      refine ⟨due, fun c hc le k => recent c hc le (left.mp k).1, fun q hq => ?_, ?_⟩
      · rw [other b e]
        exact record q hq
      · have ff := (y.ffReports.take_grows _).trans ff
        have bl := (y.blReports.take_grows _).trans bl
        exact ⟨fun k => ff.subset (reported.1 (ff.length_le.trans_lt k)),
          fun k => bl.subset (reported.2 (bl.length_le.trans_lt k))⟩

end

end

section
variable {g : GroupId} {l p : List ActId} {x y : Plant} {a : ActId}

/-- A fan looked at where there is nothing to shed is passed over. -/
theorem Plant.ShedTo.pass (h : Plant.ShedTo g (a :: l) x y)
    (ha : a ∉ y.scaledSet g ∨ (y.figures g).minFlow ≤ (y.figures g).available) : Plant.ShedTo g l x y := by
  refine { h with pending := ?_ }
  obtain room | rest := h.pending
  · exact .inl room
  · refine ha.symm.imp id fun out b hb => (List.mem_cons.mp (rest b hb)).resolve_left ?_
    rintro rfl
    exact out hb

/-- Shedding goes through the grant history to its end. -/
theorem Plant.ShedTo.foldl (once : (x.history.look g).Nodup) (checked : x.checked g = true) (h : Plant.ShedTo g l x y)
    (cut : (x.history.look g).reverse = p ++ l) : Plant.ShedTo g [] x (l.foldl (Plant.shedStep id g) y) := by
  induction l generalizing p y with
  | nil => exact h
  | cons a l ih =>
    rw [List.foldl_cons]
    have cut' : (x.history.look g).reverse = (p ++ [a]) ++ l := by rw [cut, List.append_assoc, List.singleton_append]
    by_cases still : a ∉ y.scaledSet g ∨ (y.figures g).minFlow ≤ (y.figures g).available
    · rw [Plant.shedStep_of_still id h.current still]
      exact ih (h.pass still) cut'
    · obtain ⟨ha, short⟩ := not_or.mp still
      rw [Plant.shedStep_of_due id h.current (not_not.mp ha) (Nat.lt_of_not_le short)]
      exact ih (h.shed_next once cut (Nat.lt_of_not_le short) (not_not.mp ha) checked) cut'

/-- Shedding begins on current figures, with every scaled fan in the grant history. -/
theorem Plant.ShedTo.refresh (granted : ∀ a ∈ x.scaledSet g, a ∈ x.history.look g) :
    Plant.ShedTo g (x.history.look g).reverse x (x.refresh g) := by
  have set : (x.refresh g).scaledSet g = x.scaledSet g := Plant.scaledSet_congr fun _ => rfl
  refine ⟨x.refresh_keeps g, rfl, x.refresh_current g, by rw [x.refresh_figures], fun a ha => set ▸ ha, fun _ _ => rfl,
    fun a ha out => absurd (set ▸ ha) out, .inr fun a ha => List.mem_reverse.mpr (granted a (set ▸ ha))⟩

/-- After the whole shedding the minimum flow is within the available capacity. -/
theorem Plant.ShedTo.room (h : Plant.ShedTo g [] x y) (checked : x.checked g = true) :
    ((y.scaledSet g).map x.leastFlow).sum ≤ (x.figures g).available := by
  rw [← h.minFlow checked, ← h.available]
  obtain room | none := h.pending
  · exact room
  · rw [h.minFlow checked, List.eq_nil_iff_forall_not_mem.mpr fun a ha => List.not_mem_nil (none a ha)]
    exact Nat.zero_le _

end

/-! ### The evaluation -/

/-- An evaluation of a checked group without a search for a grant has come from `x` to `y`, with the applied speeds `v`
(R105 to R110). -/
structure Plant.Evaluates (g : GroupId) (x y : Plant) (v : ActId → Nat) : Prop where
  keeps : x.Keeps y
  stagger : y.stagger = x.stagger
  current : y.figs.look g = y.figures g
  available : (y.figures g).available = (x.figures g).available
  sublist : (y.scaledSet g).Sublist (x.scaledSet g)
  room : ((y.scaledSet g).map x.leastFlow).sum ≤ (x.figures g).available
  whole : ((x.scaledSet g).map x.leastFlow).sum ≤ (x.figures g).available → y.scaledSet g = x.scaledSet g
  apart : ∀ a, a ∉ x.scaledSet g → y.chans.look a = x.chans.look a
  shed : ∀ a ∈ x.scaledSet g, a ∉ y.scaledSet g → Plant.ShedIn g (x.figures g).available x y a
  allots : Allots x.scaledFan (y.scaledSet g) (x.figures g).available v
  given : ∀ a ∈ y.scaledSet g, y.chans.look a = (x.chans.look a).atSpeed (v a)

section
variable {g : GroupId} {x z : Plant}

/-- Speeds handed out after the whole shedding. -/
theorem Plant.ShedTo.handSpeeds (h : Plant.ShedTo g [] x z) (checked : x.checked g = true)
    (whole : ((x.scaledSet g).map x.leastFlow).sum ≤ (x.figures g).available → z.scaledSet g = x.scaledSet g) :
    ∃ v, Plant.Evaluates g x (z.handSpeeds g) v := by
  have same : ∀ a ∈ z.scaledSet g, z.scaledFan a = x.scaledFan a := fun a ha => by
    rw [Plant.scaledFan, Plant.scaledFan, Plant.fan?, Plant.fan?, h.same a fun _ => ha]
  obtain ⟨v, allots, e⟩ := z.handSpeeds_eq g x.scaledFan x.scaledFan_fan same
  have set := z.handSpeeds_scaledSet g g
  have figures := z.handSpeeds_figures g g
  have out {a : ActId} (ha : a ∉ z.scaledSet g) : (z.handSpeeds g).chans.look a = z.chans.look a := by
    rw [e, Plant.atSpeeds_look, if_neg ha]
  refine ⟨v, h.keeps.trans (z.handSpeeds_keeps g), ?_, ?_, ?_, set ▸ h.sublist, set ▸ h.room checked,
    fun fits => set.trans (whole fits), fun a ha => ?_, fun a ha gone => ?_, ?_, fun a ha => ?_⟩
  · rw [e]
    simp only [Plant.atSpeeds]
    exact h.stagger
  · rw [z.handSpeeds_figs, figures, h.current]
  · rw [figures, h.available]
  · rw [out fun k => ha (h.subset a k)]
    exact h.same a fun k => absurd k ha
  · rw [set] at gone
    obtain ⟨due, recent, record, reported⟩ := h.shed a ha gone
    refine ⟨due, fun b hb le => set ▸ recent b hb le, by rw [out gone]; exact record, ?_⟩
    rw [e]
    simp only [Plant.atSpeeds]
    exact reported
  · rw [set, ← h.available, ← h.current]
    exact allots
  · rw [set] at ha
    rw [e, Plant.atSpeeds_look, if_pos ha, h.same a fun _ => ha]

/-- What an evaluation of a checked group does, with its scaled fans once in its grant history. -/
theorem Plant.evaluate_evaluates (checked : x.checked g = true) (granted : ∀ a ∈ x.scaledSet g, a ∈ x.history.look g)
    (once : (x.history.look g).Nodup) : ∃ v, Plant.Evaluates g x (x.evaluate id g) v := by
  have shed := Plant.ShedTo.foldl (p := []) once checked (.refresh granted) rfl
  rw [Plant.evaluate_of_checked checked]
  refine shed.handSpeeds checked fun fits => ?_
  rw [← Plant.minFlow_eq checked] at fits
  have still : (x.refresh g).shedAll id g = x.refresh g :=
    Plant.shedAll_of_room id (by rw [x.refresh_current, x.refresh_figures]; exact fits)
  exact (congrArg (Plant.scaledSet · g) still).trans (Plant.scaledSet_congr fun _ => rfl)

end

/-! ### The figures of fans -/

/-- A figure of the fan on channel `a`, 0 for another kind of channel. -/
def Plant.ofFan (x : Plant) (k : Fan → Nat) (a : ActId) : Nat :=
  match x.chans.look a with
  | .fan f => k f
  | _ => 0

section
variable {x : Plant} {a : ActId}

theorem Plant.ofFan_of_fan {f : Fan} (h : x.chans.look a = .fan f) (k : Fan → Nat) : x.ofFan k a = k f := by
  rw [Plant.ofFan, h]

/-- A figure that the allocation goes by. -/
theorem Plant.ofFan_eq (k : Fan → Nat) (m : ScaledFan → Nat) (hk : ∀ f, m ⟨a, f.cfg.rated, f.cfg.minSpeed, f.demanded⟩ = k f)
    (hm : m ⟨a, 0, 0, 0⟩ = 0) : x.ofFan k a = m (x.scaledFan a) := by
  unfold Plant.ofFan Plant.scaledFan Plant.fan?
  cases x.chans.look a with
  | fan f => exact (hk f).symm
  | _ => exact hm.symm

theorem Plant.ofFan_minSpeed : x.ofFan (fun f => f.cfg.minSpeed) a = (x.scaledFan a).m :=
  Plant.ofFan_eq _ ScaledFan.m (fun _ => rfl) rfl

theorem Plant.ofFan_demanded : x.ofFan Fan.demanded a = (x.scaledFan a).d := Plant.ofFan_eq _ ScaledFan.d (fun _ => rfl) rfl

theorem Plant.sum_ofFan_least (x : Plant) (l : List ActId) :
    (l.map (x.ofFan fun f => f.cfg.rated * f.cfg.minSpeed)).sum = minFlowOf (l.map x.scaledFan) := by
  rw [minFlowOf_map]
  exact congrArg List.sum (List.map_congr_left fun a _ => Plant.ofFan_eq _ (fun s => s.q * s.m) (fun _ => rfl) rfl)

theorem Plant.sum_ofFan_demanded (x : Plant) (l : List ActId) :
    (l.map (x.ofFan fun f => f.cfg.rated * f.demanded)).sum = demandFlowOf (l.map x.scaledFan) := by
  rw [demandFlowOf_map]
  exact congrArg List.sum (List.map_congr_left fun a _ => Plant.ofFan_eq _ (fun s => s.q * s.d) (fun _ => rfl) rfl)

theorem Plant.sum_leastFlow (x : Plant) (l : List ActId) : (l.map x.leastFlow).sum = minFlowOf (l.map x.scaledFan) := by
  rw [← x.sum_ofFan_least]
  refine congrArg List.sum (List.map_congr_left fun a _ => ?_)
  unfold Plant.leastFlow Plant.ofFan Plant.fan?
  cases x.chans.look a <;> rfl

end

/-! ### What the evaluation gives the scaled fans (R109, R110) -/

section
variable {g : GroupId} {x y : Plant} {v : ActId → Nat} (h : Plant.Evaluates g x y v)
include h

/-- A scaled fan after an evaluation: its own record at the speed allotted. -/
theorem Plant.Evaluates.look {a : ActId} (ha : a ∈ y.scaledSet g) :
    ∃ f, x.chans.look a = .fan f ∧ y.chans.look a = .fan { f with applied := v a } := by
  obtain ⟨f, hf, -⟩ := Plant.mem_scaledSet.mp (h.sublist.subset ha)
  exact ⟨f, hf, by rw [h.given a ha, hf]; rfl⟩

theorem Plant.Evaluates.applied {a : ActId} (ha : a ∈ y.scaledSet g) : y.ofFan Fan.applied a = v a := by
  obtain ⟨f, -, look⟩ := h.look ha
  exact Plant.ofFan_of_fan look _

/-- The flow of the applied speeds is within the available capacity (R110). -/
theorem Plant.Evaluates.flow_le :
    ((y.scaledSet g).map (y.ofFan fun f => f.cfg.rated * f.applied)).sum ≤ (x.figures g).available := by
  have room := h.room
  rw [x.sum_leastFlow] at room
  refine le_trans (le_of_eq ?_) (h.allots.flow_le room)
  refine congrArg List.sum (List.map_congr_left fun a ha => ?_)
  obtain ⟨f, hf, look⟩ := h.look ha
  rw [Plant.ofFan_of_fan look, Plant.scaledFan_of_fan hf]

/-- An applied speed lies between the minimum and the demanded speed. -/
theorem Plant.Evaluates.between {a : ActId} (ha : a ∈ y.scaledSet g) {f r : Fan} (hf : x.chans.look a = .fan f)
    (hr : y.chans.look a = .fan r) (sound : f.cfg.minSpeed ≤ f.demanded) :
    r.cfg.minSpeed ≤ r.applied ∧ r.applied ≤ r.demanded := by
  have between := h.allots.between (a := a) (by rw [Plant.scaledFan_of_fan hf]; exact sound)
  rw [h.given a ha, hf] at hr
  cases hr
  rw [Plant.scaledFan_of_fan hf] at between
  exact between

/-- Where the demanded speeds fit, they are applied (R109). -/
theorem Plant.Evaluates.demanded (fits : demandFlowOf ((y.scaledSet g).map x.scaledFan) ≤ (x.figures g).available) (a : ActId) :
    v a = (x.scaledFan a).d := by
  obtain ⟨-, rfl⟩ | ⟨more, -⟩ := h.allots
  · rfl
  · exact absurd fits (Nat.not_le.mpr more)

/-- Where they do not, the speeds are those of the last of R109's rounds. -/
theorem Plant.Evaluates.rounds (more : (x.figures g).available < demandFlowOf ((y.scaledSet g).map x.scaledFan)) :
    ∃ n, freeAfter x.scaledFan (y.scaledSet g) (x.figures g).available (n + 1)
        = freeAfter x.scaledFan (y.scaledSet g) (x.figures g).available n
      ∧ v = roundSpeed x.scaledFan (y.scaledSet g) (x.figures g).available n := by
  obtain ⟨fits, -⟩ | ⟨-, rounds⟩ := h.allots
  · exact absurd fits (Nat.not_le.mpr more)
  · exact rounds

end

theorem Fan.energized_iff (f : Fan) : f.energized = true ↔ f.state = .starting ∨ f.state = .running ∨ f.state = .runFault := by
  unfold Fan.energized FanState.energized
  cases f.state <;> simp

/-- Settles O44: shedding is followed fan by fan down the grant history (`Plant.ShedTo`), and the speeds handed out after it are
those of R109's rounds (`Allots`). -/
theorem anEvaluationKeepsTheFlowWithinTheCapacity : Obligations.AnEvaluationKeepsTheFlowWithinTheCapacity := by
  unfold Obligations.AnEvaluationKeepsTheFlowWithinTheCapacity
  intro x g speed granted once sound y inlet ofFan energized manual A least wanted place before after _
  have checked : x.checked g = true := (x.checked_iff g).mpr speed
  obtain ⟨v, h⟩ := Plant.evaluate_evaluates checked granted once
  have available : (x.figures g).available = A := by
    have areas : inlet = fun a => (x.chans.look a).area g := funext fun a => by
      dsimp only [inlet]
      unfold Channel.area
      cases x.chans.look a <;> rfl
    have flows : manual = fun a => (x.chans.look a).manualFlow g := funext fun a => by
      dsimp only [manual, ofFan]
      unfold Channel.manualFlow
      cases x.chans.look a <;> rfl
    rw [Plant.available_eq checked, ← areas, ← flows]
  have figure (k : Fan → Nat) (p : Plant) (a : ActId) : ofFan k p a = p.ofFan k a := by
    dsimp only [ofFan]
    unfold Plant.ofFan
    cases p.chans.look a <;> rfl
  have figures (k : Fan → Nat) (p : Plant) : ofFan k p = p.ofFan k := funext (figure k p)
  have leastFlow (l : List ActId) : least l = minFlowOf (l.map x.scaledFan) := by
    dsimp only [least]
    rw [figures, x.sum_ofFan_least]
  have wantedFlow (l : List ActId) : wanted l = demandFlowOf (l.map x.scaledFan) := by
    dsimp only [wanted]
    rw [figures, x.sum_ofFan_demanded]
  obtain ⟨keeps, stagger, current, capacity, sublist, room, whole, apart, shed, -, -⟩ := id h
  simp only [x.sum_leastFlow, available] at room whole
  have flow := h.flow_le
  have demanded := h.demanded
  have rounds := h.rounds
  simp only [available] at flow demanded rounds
  refine ⟨current, by rw [current, capacity, available], fun a => ?_, by rw [figures]; exact flow, fun a ha r hr => ?_, apart,
    keeps.demands, keeps.inputs, stagger, keeps.now, sublist, by rw [leastFlow]; exact room, fun fits => whole ?_,
    fun a ha gone => ?_, fun a f ha gone hf => ?_, fun a ha f hf => ?_, fun fits a ha => ?_, fun more => ?_⟩
  · simp only [before, Plant.mem_scaledSet, Fan.energized_iff, energized]
  · obtain ⟨f, hf, -⟩ := h.look ha
    exact h.between ha hf hr (sound a (sublist.subset ha) f hf)
  · rw [← leastFlow]
    exact fits
  · obtain ⟨due, recent, -⟩ := shed a ha gone
    rw [x.sum_leastFlow, available, ← leastFlow] at due
    exact ⟨due, recent⟩
  · obtain ⟨-, -, record, ff, bl⟩ := shed a ha gone
    obtain ⟨r, look, stopped⟩ := record f hf
    rw [available] at ff bl
    refine ⟨⟨r, look, stopped.run, stopped.applied, stopped.present, stopped.requeue⟩, fun proof => ?_, ff, bl⟩
    rw [look, stopped.proven proof]
    rfl
  · obtain ⟨q, hq, look⟩ := h.look ha
    rw [hf] at hq
    cases hq
    exact ⟨v a, look⟩
  · rw [wantedFlow] at fits
    rw [figure, figure, h.applied ha, x.ofFan_demanded, demanded fits]
  · rw [wantedFlow] at more
    obtain ⟨n, last, rfl⟩ := rounds more
    refine ⟨freeAfter x.scaledFan after A, n, ?_⟩
    simp only [figure, leastFlow, wantedFlow, Plant.ofFan_minSpeed, Plant.ofFan_demanded]
    refine ⟨rfl, fun _ => rfl, last, fun a ha => ?_⟩
    rw [h.applied ha]
    rfl

end Sys2Proof.Machine
end
